-- ==== Sys2Proof/Word.lean ====
section
/-! DEFINITION. The unit of every buffer and of the wire, and byte strings (00_scope.md section 6, 20_memory.md R42). -/

namespace Sys2Proof

/-- An 8-bit byte, the unit of the wire and of both buffers (R42). -/
abbrev Byte := BitVec 8

/-- A byte string; index 0 is the first byte transmitted or received (00_scope.md section 6). -/
abbrev Bytes := List Byte

/-- A device identity, `ID_W` = 16 bits (R9). -/
abbrev DeviceId := BitVec 16

/-- A checksum value, `CRC_W` = 16 bits (R9). -/
abbrev Crc := BitVec 16

/-- A 48-bit command word, bit 47 the most significant (R72). -/
abbrev CommandWord := BitVec 48

/-- The 32-bit value a register access or a response carries (R47, R56). -/
abbrev Value := BitVec 32

end Sys2Proof
end

