-- ==== Sys2Proof/Machine/Crc.lean ====
section
/-! DEFINITION. IntegrityCheck: CRC-16/CCITT-FALSE, bit by bit (40_integrity.md R86, R87). -/

namespace Sys2Proof

/-- `CRC_POLY` (R9, R86). -/
def crcPoly : Crc := 0x1021

/-- `CRC_INIT` (R9, R86). -/
def crcInit : Crc := 0xFFFF

/-- One turn of R87's inner loop: shift left one place, dropping bit 15, and add the polynomial if bit 15 was 1. -/
def crcShift (c : Crc) : Crc := if c.getLsbD 15 then (c <<< 1) ^^^ crcPoly else c <<< 1

/-- `n` turns of R87's inner loop. -/
def crcShifts : Nat → Crc → Crc
  | 0, c => c
  | n + 1, c => crcShifts n (crcShift c)

/-- One turn of R87's outer loop: the byte goes into the high half, then eight shifts. -/
def crcByte (c : Crc) (b : Byte) : Crc := crcShifts 8 (c ^^^ (b.zeroExtend 16 <<< 8))

/-- The register after the bytes `b`, from register value `c`. -/
def crcFrom (c : Crc) (b : Bytes) : Crc := b.foldl crcByte c

/-- `crc16` (R86, R87): no reflection and a final exclusive-or of 0, so the register itself is the result. -/
def crc16 (b : Bytes) : Crc := crcFrom crcInit b

end Sys2Proof
end

