-- ==== Sys2Proof/Config.lean ====
section
/-! DEFINITION. The constants of 00_scope.md R9 and the two parameters the spec leaves OPEN. -/

namespace Sys2Proof

/-- `Params` of R7 and R9: what the integrator supplies before reset is released (R194). -/
structure Params where
  /-- `DEVICE_ID`: any 16-bit value (D15). -/
  deviceId : DeviceId
  /-- `TICKS_PER_UNIT`: ticks in one time-unit of the document (D2). -/
  ticksPerUnit : Nat
deriving DecidableEq, Repr

/-- The bound R9 puts on `TICKS_PER_UNIT`: positive, and `2 * TICKS_PER_UNIT < 2^32`. -/
abbrev Params.Legal (p : Params) : Prop := 0 < p.ticksPerUnit ∧ 2 * p.ticksPerUnit < 2 ^ 32

namespace Config

/-- `DEVICE_ID` of this instance: OPEN in the spec (R9, D15), so no value of it can be evaluated or proved. -/
opaque deviceId : DeviceId

/-- `TICKS_PER_UNIT - 1` of this instance: OPEN in the spec (R9, D2). The type holds exactly the legal values
`0 … 2^31 - 2`, so that `ticksPerUnit` below ranges over `1 … 2^31 - 1`. -/
opaque ticksPerUnitLessOne : Fin 2147483647

/-- `TICKS_PER_UNIT` of this instance, `1 … 2^31 - 1` (R9). -/
def ticksPerUnit : Nat := ticksPerUnitLessOne.val + 1

/-- The parameters of this instance. -/
def params : Params := ⟨deviceId, ticksPerUnit⟩

/-- `HDR` (R9). -/
def hdr : Byte := 0xAA

/-- `FTR` (R9). -/
def ftr : Byte := 0x55

/-- `ACK_MARK` (R9, D7). -/
def ackMark : Byte := 0x06

/-- `PAYLOAD_MAX` (R9). -/
def payloadMax : Nat := 255

/-- `FRAME_MIN` (R9). -/
def frameMin : Nat := 10

/-- `FRAME_MAX` (R9): the size of `TXF` (R24). -/
def frameMax : Nat := 265

/-- `MAXRETRY_RESET` (R9, D14). -/
def maxRetryReset : BitVec 8 := 3

/-- `AUTOACK_RESET` (R9, D18). -/
def autoAckReset : Bool := true

end Config

end Sys2Proof
end

