-- ==== Sys2Proof/Syntax.lean ====
section
/-! DEFINITION. The operations of the opcode table, one constructor per row of spec/opcode_table.json. -/

namespace Sys2Proof

/-- One operation of LLC. The first six are commands of the host (30_encoding.md R72, R74); the last two are the wire
frames the transport hands over (R64, R70), an operation of the machine when one is received. A field the spec calls
ignored or reserved is kept, so that no bit of an encoding is lost. -/
inductive Instr where
  /-- CRC16, op 0x01, Format B: `a` and the reserved byte are ignored (R72, R90). -/
  | crc16 (a : BitVec 16) (reserved : BitVec 8) (data : Bytes)
  /-- ENCODE, op 0x02, Format B: `a` is the `destination_id`, `data` the payload (R104). -/
  | encode (a : BitVec 16) (reserved : BitVec 8) (data : Bytes)
  /-- DECODE, op 0x03, Format B: `data` is the raw buffer, `a` is ignored (R114). -/
  | decode (a : BitVec 16) (reserved : BitVec 8) (data : Bytes)
  /-- SEND, op 0x04, Format B: `a` is the `destination_id`, `data` the payload (R120). -/
  | send (a : BitVec 16) (reserved : BitVec 8) (data : Bytes)
  /-- RDREG, op 0x05, Format R: `v` is ignored (R159). -/
  | rdreg (r : BitVec 8) (v : Value)
  /-- WRREG, op 0x06, Format R (R162). -/
  | wrreg (r : BitVec 8) (v : Value)
  /-- FRAME: a received valid frame that is not an ACK frame, a data frame (R64, R70). -/
  | frame (src dst : DeviceId) (seq : Byte) (payload : Bytes)
  /-- FRAME.ACK: a received valid frame whose payload is `[0x06, acked]` (R70). -/
  | frameAck (src dst : DeviceId) (seq : Byte) (acked : Byte)
deriving DecidableEq, Repr

end Sys2Proof
end

