-- ==== Sys2Proof/WellFormed.lean ====
section
/-! DEFINITION. Which terms of Instr an encoding exists for. -/

namespace Sys2Proof

/-- Format B carries `n = len(data)` in 16 bits (R72, D24). -/
abbrev Instr.formatBFits (data : Bytes) : Prop := data.length < 2 ^ 16

/-- A payload of ACK form: exactly two bytes, the first `ACK_MARK` (R70). -/
abbrev Instr.ackForm (payload : Bytes) : Prop := payload.length = 2 ∧ payload[0]? = some Config.ackMark

/-- The instruction has an encoding: a command's data fits the 16-bit length (R72); a data frame's payload fits the
8-bit length byte (R66) and has not the form that makes the frame an ACK frame (R70). -/
def Instr.wf : Instr → Bool
  | .crc16 _ _ data | .encode _ _ data | .decode _ _ data | .send _ _ data => decide (Instr.formatBFits data)
  | .rdreg _ _ | .wrreg _ _ => true
  | .frame _ _ _ payload => decide (payload.length ≤ Config.payloadMax) && decide (¬ Instr.ackForm payload)
  | .frameAck _ _ _ _ => true

end Sys2Proof
end

