-- ==== Sys2Proof/Decode.lean ====
section
/-! DEFINITION. The decoder of both encodings of the spec, the command word (30_encoding.md R72 to R75) and the wire
frame (R63 to R70, 42_codec.md R106), and after it the encoder, written from the same tables. -/

namespace Sys2Proof

/-- The record `Frame` of R10: a frame that has passed the byte layout and the checksum. -/
structure Frame where
  src : DeviceId
  dst : DeviceId
  seq : Byte
  payload : Bytes
deriving DecidableEq, Repr

/-- What reaches LLC with an encoding: a command word with the data bytes that follow it (R72), or a byte string handed
over as one candidate frame (R51, R63). -/
inductive Wire where
  | command (word : CommandWord) (data : Bytes)
  | buffer (bytes : Bytes)
deriving DecidableEq, Repr

/-- Why the decoder answers no instruction. -/
inductive DecodeError where
  /-- `op` is 0x00 or 0x07 to 0xFF (R77). -/
  | reservedOpcode (op : BitVec 8)
  /-- Not exactly `n` data bytes follow the word of a Format B command, which R72 excludes by the definition of `n`. -/
  | commandDataLength
  /-- The buffer has not the layout of a frame: `none(2)` of R106 (R107 to R110). -/
  | malformedFrame
  /-- The layout is right and the checksum is not: `none(3)` of R106 (R111). -/
  | checksumMismatch
deriving DecidableEq, Repr

/-! ## Bytes and 16-bit values (00_scope.md section 6, R44, R65) -/

/-- `be16(h, l)`: the more significant byte first. -/
def be16 (h l : Byte) : BitVec 16 := h ++ l

/-- `hi(v)` = `v[15:8]`. -/
def hiByte (v : BitVec 16) : Byte := v.extractLsb' 8 8

/-- `lo(v)` = `v[7:0]`. -/
def loByte (v : BitVec 16) : Byte := v.extractLsb' 0 8

/-- `b[i]`. Every index R106 reads is in range when it is read; out of range it is 0, which nothing rests on. -/
def byteAt (b : Bytes) (i : Nat) : Byte := b.getD i 0

/-- `b[i..j]`, `j` excluded. -/
def slice (b : Bytes) (i j : Nat) : Bytes := (b.drop i).take (j - i)

/-! ## The wire frame: `decode(raw)` of 42_codec.md -/

/-- `is_ack(fr)` of R70. -/
def Frame.isAck (fr : Frame) : Bool := decide (Instr.ackForm fr.payload)

/-- `acked_seq(fr)` of R70: the second payload byte. -/
def Frame.ackedSeq (fr : Frame) : Byte := byteAt fr.payload 1

/-- `decode(raw)` of R106: five checks in the document's order, then the fields. -/
def decodeFrame (raw : Bytes) : Except DecodeError Frame :=
  if raw.length < Config.frameMin then .error .malformedFrame                              -- R107
  else if byteAt raw 0 ≠ Config.hdr then .error .malformedFrame                            -- R108
  else if byteAt raw (raw.length - 1) ≠ Config.ftr then .error .malformedFrame             -- R109
  else if raw.length ≠ 10 + (byteAt raw 6).toNat then .error .malformedFrame               -- R110
  else if crc16 (slice raw 1 (7 + (byteAt raw 6).toNat)) ≠
      be16 (byteAt raw (7 + (byteAt raw 6).toNat)) (byteAt raw (8 + (byteAt raw 6).toNat)) then
    .error .checksumMismatch                                                               -- R111
  else                                                                                     -- R112
    .ok { src := be16 (byteAt raw 1) (byteAt raw 2)
          dst := be16 (byteAt raw 3) (byteAt raw 4)
          seq := byteAt raw 5
          payload := slice raw 7 (7 + (byteAt raw 6).toNat) }

/-- The row of the opcode table a valid frame belongs to: FRAME.ACK if its payload has ACK form, else FRAME (R70). -/
def Frame.toInstr (fr : Frame) : Instr :=
  if fr.isAck then .frameAck fr.src fr.dst fr.seq fr.ackedSeq else .frame fr.src fr.dst fr.seq fr.payload

/-! ## The command word (R72, R75) -/

/-- `op` = `word[47:40]`. -/
def CommandWord.op (w : CommandWord) : BitVec 8 := w.extractLsb' 40 8

/-- Format B: `a` = `word[39:24]`. -/
def CommandWord.a (w : CommandWord) : BitVec 16 := w.extractLsb' 24 16

/-- Format B: `n` = `word[23:8]`. -/
def CommandWord.n (w : CommandWord) : BitVec 16 := w.extractLsb' 8 16

/-- Format B: the reserved bits `word[7:0]`. -/
def CommandWord.reserved (w : CommandWord) : BitVec 8 := w.extractLsb' 0 8

/-- Format R: `r` = `word[39:32]`. -/
def CommandWord.r (w : CommandWord) : BitVec 8 := w.extractLsb' 32 8

/-- Format R: `v` = `word[31:0]`. -/
def CommandWord.v (w : CommandWord) : Value := w.extractLsb' 0 32

/-- A Format B command: exactly `n` data bytes follow the word (R72). -/
def decodeFormatB (make : BitVec 16 → BitVec 8 → Bytes → Instr) (w : CommandWord) (data : Bytes) :
    Except DecodeError Instr :=
  if data.length = (CommandWord.n w).toNat then .ok (make (CommandWord.a w) (CommandWord.reserved w) data)
  else .error .commandDataLength

/-- R75: `op` selects the operation and with it the format; a Format R command and a reserved one have no data as far as
LLC is concerned. -/
def decodeCommand (w : CommandWord) (data : Bytes) : Except DecodeError Instr :=
  if CommandWord.op w = 0x01 then decodeFormatB .crc16 w data
  else if CommandWord.op w = 0x02 then decodeFormatB .encode w data
  else if CommandWord.op w = 0x03 then decodeFormatB .decode w data
  else if CommandWord.op w = 0x04 then decodeFormatB .send w data
  else if CommandWord.op w = 0x05 then .ok (.rdreg (CommandWord.r w) (CommandWord.v w))
  else if CommandWord.op w = 0x06 then .ok (.wrreg (CommandWord.r w) (CommandWord.v w))
  else .error (.reservedOpcode (CommandWord.op w))

/-- The decoder: total on any word and any bytes, rejecting by name. -/
def decode : Wire → Except DecodeError Instr
  | .command w data => decodeCommand w data
  | .buffer raw =>
    match decodeFrame raw with
    | .ok fr => .ok fr.toInstr
    | .error e => .error e

/-! ## The encoder, from the same tables -/

/-- The bytes the checksum covers (R67, R99 `body`): source, destination, sequence number, length byte, payload. -/
def frameBody (fr : Frame) : Bytes :=
  [hiByte fr.src, loByte fr.src, hiByte fr.dst, loByte fr.dst, fr.seq, BitVec.ofNat 8 fr.payload.length] ++ fr.payload

/-- The frame on the wire (R63, R64, R102): header, body, checksum with its more significant byte first, footer. -/
def buildFrame (fr : Frame) : Bytes :=
  [Config.hdr] ++ frameBody fr ++ [hiByte (crc16 (frameBody fr)), loByte (crc16 (frameBody fr))] ++ [Config.ftr]

/-- Format B of R72. -/
def formatB (op : BitVec 8) (a : BitVec 16) (reserved : BitVec 8) (data : Bytes) : Wire :=
  .command (op ++ a ++ BitVec.ofNat 16 data.length ++ reserved) data

/-- Format R of R72. -/
def formatR (op r : BitVec 8) (v : Value) : Wire := .command (op ++ r ++ v) []

/-- The encoding of an instruction (R64, R70, R72, R74). -/
def encode : Instr → Wire
  | .crc16 a reserved data => formatB 0x01 a reserved data
  | .encode a reserved data => formatB 0x02 a reserved data
  | .decode a reserved data => formatB 0x03 a reserved data
  | .send a reserved data => formatB 0x04 a reserved data
  | .rdreg r v => formatR 0x05 r v
  | .wrreg r v => formatR 0x06 r v
  | .frame src dst seq payload => .buffer (buildFrame ⟨src, dst, seq, payload⟩)
  | .frameAck src dst seq acked => .buffer (buildFrame ⟨src, dst, seq, [Config.ackMark, acked]⟩)

/-! ## A word of the opcode table -/

/-- `k` bytes of `w`, the byte of the lowest offset in the least significant place. -/
def tableBytes : Nat → Nat → Bytes
  | 0, _ => []
  | k + 1, w => BitVec.ofNat 8 w :: tableBytes k (w / 256)

/-- The table's word `w` of `nbits` bits as it reaches LLC. A command row has one 48-bit word (R72), numbered as in the
table, followed by its `n` data bytes, all 0; any other number of bits is that of a byte pattern of the wire (R82, rows of
format W), its first byte in bits 7:0. -/
def tableWire (nbits w : Nat) : Wire :=
  if nbits = 48 then
    .command (BitVec.ofNat 48 w) (List.replicate (CommandWord.n (BitVec.ofNat 48 w)).toNat 0)
  else .buffer (tableBytes (nbits / 8) w)

/-- The instruction the decoder reads from a word of spec/opcode_table.json, if it is one. -/
def decodeTableWord (nbits w : Nat) : Option Instr :=
  match decode (tableWire nbits w) with
  | .ok i => some i
  | .error _ => none

end Sys2Proof
end

