-- ==== Sys2Proof/Machine/State.lean ====
section
/-! DEFINITION. The architectural state of 10_state.md as plain data, its reset value, and the ways a step can stop. -/

namespace Sys2Proof.Machine

/-- The six states of the retry machine (43_arq.md R119); their numbers 0 to 5 (R20) are `ArqState.code`. -/
inductive ArqState where
  | idle | sending | awaitingAck | retrying | acknowledged | exhausted
deriving DecidableEq, Repr

/-- The error codes of 60_exceptions.md R169; their numbers 0 to 7 are `ErrCode.code`. -/
inductive ErrCode where
  | success | payloadTooLarge | malformedFrame | checksumMismatch
  | transportFailure | ackTimeout | retriesExhausted | refused
deriving DecidableEq, Repr

/-- The five events of 20_memory.md R50 to R54. -/
inductive Event where
  /-- `Cmd(c)`: a command word and the data bytes that come with it (R50, R72). -/
  | cmd (word : CommandWord) (data : Bytes)
  /-- `RxBytes(b)`: one received buffer, one candidate frame (R51). -/
  | rxBytes (b : Bytes)
  /-- `Tick` (R52). -/
  | tick
  /-- `Cancel` (R53). -/
  | cancel
  /-- `Reset` (R54). -/
  | reset
deriving DecidableEq, Repr

/-- What the environment supplies to one step (00_scope.md R7): the event, and the transport's answer to the at most
one `Transmit` of that step (`true` is success). -/
structure Input where
  event : Event
  txOk : Bool
deriving DecidableEq, Repr

/-- The outputs of 20_memory.md R56 to R59. -/
inductive Output where
  | rsp (err : ErrCode) (val : Value) (data : Bytes)
  | transmit (bytes : Bytes)
  | deliver (src dst : DeviceId) (seq : Byte) (payload : Bytes)
  | ackTxFail
deriving DecidableEq, Repr

/-- The contents of one buffer: the bytes that have been written, by index, the indices strictly rising. An index that is
not listed has NO value: the spec leaves those bytes unspecified (R24, R27, R34). -/
abbrev Memory := List Host.Cell

/-- The canonical form of a buffer of `size` bytes: indices strictly rising and inside the buffer. An unlisted byte has
no value, so no listed byte equals it. -/
abbrev Memory.wf (size : Nat) (m : Memory) : Prop :=
  m.Pairwise (fun x y => x.1 < y.1) ∧ ∀ c ∈ m, c.1 < size

/-- `TXF` has 265 bytes, index 0 to 264 (R24, R41). -/
def txfSize : Nat := 265

/-- `RXP` has 255 bytes, index 0 to 254 (R27, R41). -/
def rxpSize : Nat := 255

/-- Why the model stops where the spec's machine does not stop (60_exceptions.md R177: "There is no fault state").
Both stops are safe: nothing is claimed beyond them, and no state with the invariant of Safety.lean meets them. -/
inductive Fault where
  /-- A rule read the byte `index` of a buffer that nothing has written: its value is unspecified (R24, R27). Raised by
  `Sending` only (R123). Safe. -/
  | unspecifiedByte (index : Nat)
  /-- A rule read at `index`, outside the buffer (R41, R42). Raised by `Sending` only, with `TXLEN` above 265. Safe. -/
  | outsideBuffer (index : Nat)
deriving DecidableEq, Repr

/-- Why an input has no meaning. -/
inductive Refusal where
  /-- An operation of the opcode table without a meaning in this model. Raised by `exec` in the arm of that operation.
  Safe. -/
  | notModelled (mnemonic : String)
  /-- A Format B command that does not bring exactly `n` data bytes: R72 defines `n` as the number of bytes it brings, so
  the port cannot carry it. Raised by the command port in `Idle`. Safe. -/
  | commandDataLength
deriving DecidableEq, Repr

/-- The state of one LLC instance: the registers and buffers of 10_state.md R13, and the model's own fields `params`,
`inbox`, `txOk`, `out`, which carry the arguments and the outputs of the spec's step function (R7). -/
structure State where
  /-- Register 0, `DEVID` (R14). -/
  devid : DeviceId
  /-- Register 1, `SEQ` (R15). -/
  seq : Byte
  /-- Register 2, `MAXRETRY` (R16). -/
  maxRetry : BitVec 8
  /-- Register 3, `TIMEOUT` (R17). -/
  timeout : BitVec 32
  /-- Register 4, `CTRL`, bit 0 `AUTOACK` (R18). -/
  autoAck : Bool
  /-- Register 5, `STATUS.STATE` (R20, R29). -/
  arq : ArqState
  /-- Register 5, `STATUS.CANCELLED` (R20). -/
  cancelled : Bool
  /-- Register 5, `STATUS.ACKTXFAIL` (R20). -/
  ackTxFail : Bool
  /-- Register 6, `RESULT.ERR` (R21). -/
  resultErr : ErrCode
  /-- Register 7, `ATTEMPTS` (R22). -/
  attempts : BitVec 8
  /-- Register 8, `WAITREM` (R23). -/
  waitRem : BitVec 32
  /-- Register 9, `OUTSEQ` (R24). -/
  outSeq : Byte
  /-- Register 10, `TXLEN` (R24). -/
  txLen : BitVec 9
  /-- Register 11, `RXSTAT.RXVALID` (R25). -/
  rxValid : Bool
  /-- Register 11, `RXSTAT.RXERR` (R25). -/
  rxErr : ErrCode
  /-- Register 11, `RXSTAT.RXACK` (R25). -/
  rxAck : Bool
  /-- Register 12, `RXSRC` (R26). -/
  rxSrc : DeviceId
  /-- Register 13, `RXDST` (R26). -/
  rxDst : DeviceId
  /-- Register 14, `RXSEQ` (R26). -/
  rxSeq : Byte
  /-- Register 15, `RXLEN` (R26). -/
  rxLen : BitVec 8
  /-- The transmit frame buffer `TXF` (R24). -/
  txf : Memory
  /-- The received payload buffer `RXP` (R27). -/
  rxp : Memory
  /-- The model's own: the parameters of this instance (R9). No step changes them. -/
  params : Params
  /-- The model's own: the inputs that will arrive, the next one first (R55). -/
  inbox : List Input
  /-- The model's own: the draw `tx_ok` of the step being made (R7). -/
  txOk : Bool
  /-- The model's own: the outputs of the last step, in order (R7, R62). -/
  out : List Output
deriving DecidableEq, Repr

/-- The reset state under the parameters `p`: every register at the value of 10_state.md R34, nothing listed in either
buffer, no input and no output. -/
def State.resetWith (p : Params) : State where
  devid := p.deviceId
  seq := 0
  maxRetry := Config.maxRetryReset
  timeout := BitVec.ofNat 32 (2 * p.ticksPerUnit)
  autoAck := Config.autoAckReset
  arq := .idle
  cancelled := false
  ackTxFail := false
  resultErr := .success
  attempts := 0
  waitRem := 0
  outSeq := 0
  txLen := 0
  rxValid := false
  rxErr := .success
  rxAck := false
  rxSrc := 0
  rxDst := 0
  rxSeq := 0
  rxLen := 0
  txf := []
  rxp := []
  params := p
  inbox := []
  txOk := true
  out := []

/-- The machine right after reset (R34, R191), under this instance's parameters. -/
def State.reset : State := State.resetWith Config.params

/-- What a meaning answers. -/
abbrev Result := Host.Outcome State Fault Refusal

end Sys2Proof.Machine
end

