-- ==== Sys2Proof/Machine/Flags.lean ====
section
/-! DEFINITION. The numbers of states and errors, the status registers as words, and the response word. -/

namespace Sys2Proof.Machine

/-- `STATE` as it stands in `STATUS[2:0]` (10_state.md R20). -/
def ArqState.code : ArqState → BitVec 3
  | .idle => 0
  | .sending => 1
  | .awaitingAck => 2
  | .retrying => 3
  | .acknowledged => 4
  | .exhausted => 5

/-- The error codes of 60_exceptions.md R169. -/
def ErrCode.code : ErrCode → BitVec 3
  | .success => 0
  | .payloadTooLarge => 1
  | .malformedFrame => 2
  | .checksumMismatch => 3
  | .transportFailure => 4
  | .ackTimeout => 5
  | .retriesExhausted => 6
  | .refused => 7

/-- The code a rejected buffer gets (R106, R169): 3 for a wrong checksum in a right layout, else 2. -/
def rejectCode : DecodeError → ErrCode
  | .checksumMismatch => .checksumMismatch
  | .reservedOpcode _ | .commandDataLength | .malformedFrame => .malformedFrame

/-- `STATUS.BUSY` (R20): 1 exactly when `STATE` is not `Idle`. -/
def State.busy (s : State) : Bool := decide (s.arq ≠ .idle)

/-- LLC rests in `Idle` and in `AwaitingAck` only (R7, R119). -/
def State.atRest (s : State) : Bool := decide (s.arq = .idle) || decide (s.arq = .awaitingAck)

/-- `CTRL` as it reads (R18): bit 0 `AUTOACK`, the others 0. -/
def State.ctrlWord (s : State) : Value := 0#31 ++ BitVec.ofBool s.autoAck

/-- `STATUS` as it reads (R20). -/
def State.statusWord (s : State) : Value :=
  0#26 ++ BitVec.ofBool s.ackTxFail ++ BitVec.ofBool s.cancelled ++ BitVec.ofBool s.busy ++ s.arq.code

/-- `RESULT` as it reads (R21). -/
def State.resultWord (s : State) : Value := 0#29 ++ s.resultErr.code

/-- `RXSTAT` as it reads (R25). -/
def State.rxstatWord (s : State) : Value :=
  0#27 ++ BitVec.ofBool s.rxAck ++ s.rxErr.code ++ BitVec.ofBool s.rxValid

/-- The 40-bit response word (30_encoding.md R76): five reserved zeros, `err`, `val`. -/
def responseWord (err : ErrCode) (val : Value) : BitVec 40 := 0#5 ++ err.code ++ val

end Sys2Proof.Machine
end

