-- ==== Sys2Proof/Machine/Ops.lean ====
section
/-! DEFINITION. The named operations shared by the meanings: the buffers, outputs, `seq_next`, `encode`, `decode_rec`, the
delivery of a result (the "trap entry" of 60_exceptions.md R182) and the return to `Idle` (its "trap return", R183). -/

namespace Sys2Proof.Machine

/-! ## Buffers -/

/-- The byte at `i`, if one has been written there. -/
def Memory.read : Memory → Nat → Option Byte
  | [], _ => none
  | (j, b) :: m, i => if i = j then some b else Memory.read m i

/-- Write `b` at `i`, keeping the indices strictly rising. -/
def Memory.write : Memory → Nat → Byte → Memory
  | [], i, b => [(i, b)]
  | (j, c) :: m, i, b =>
    if i < j then (i, b) :: (j, c) :: m
    else if i = j then (i, b) :: m
    else (j, c) :: Memory.write m i b

/-- `MemWrite(buf, i, len(bs), bs)` of 00_scope.md section 6: the bytes `bs` at index `i` and up. -/
def Memory.writeBytes : Memory → Nat → Bytes → Memory
  | m, _, [] => m
  | m, i, b :: bs => Memory.writeBytes (Memory.write m i b) (i + 1) bs

/-- A buffer into which the rule's one write, at index 0, has put `bs`: its live bytes. What it held above them the spec
calls unspecified (R24, R27), and recommends to keep the live bytes alone (93_implementation_defined.md U16): no index
above them has a value. -/
def Memory.live (bs : Bytes) : Memory := Memory.writeBytes [] 0 bs

/-- Read the byte at `i` of a buffer of `size` bytes. -/
def Memory.fetch (size : Nat) (m : Memory) (i : Nat) : Except Fault Byte :=
  if i < size then
    match Memory.read m i with
    | some b => .ok b
    | none => .error (.unspecifiedByte i)
  else .error (.outsideBuffer i)

/-- `MemRead(buf, i, n)` of 00_scope.md section 6. -/
def Memory.fetchBytes (size : Nat) (m : Memory) (i : Nat) : Nat → Except Fault Bytes
  | 0 => .ok []
  | n + 1 =>
    match Memory.fetch size m i with
    | .error f => .error f
    | .ok b =>
      match Memory.fetchBytes size m (i + 1) n with
      | .error f => .error f
      | .ok bs => .ok (b :: bs)

/-- `TXF[0..TXLEN]`, the frame being sent (R24, R57). -/
def State.txFrame (s : State) : Except Fault Bytes := Memory.fetchBytes txfSize s.txf 0 s.txLen.toNat

/-- `RXP[0..RXLEN]`, the payload of the last good decode (R27, R58). -/
def State.rxPayload (s : State) : Except Fault Bytes := Memory.fetchBytes rxpSize s.rxp 0 s.rxLen.toNat

/-! ## Outputs and results -/

/-- `emit X` of 00_scope.md section 6: append to the step's outputs. -/
def State.emit (s : State) (o : Output) : State := { s with out := s.out ++ [o] }

/-- Delivery of a command's result (R56, R182): one `Rsp`, and nothing else changes. -/
def State.respond (s : State) (err : ErrCode) (val : Value) (data : Bytes) : State := s.emit (.rsp err val data)

/-- Return to `Idle` (R183): the attempt is over and commands are taken again. -/
def State.returnToIdle (s : State) : State := { s with arq := .idle }

/-- Resolution of a SEND (R125, R135, R136): `RESULT.ERR` and the `Rsp` get the code, with the retries used, and LLC
returns to `Idle`. -/
def State.resolve (s : State) (err : ErrCode) : State :=
  ({ s with resultErr := err }.respond err (s.attempts.zeroExtend 32) []).returnToIdle

/-- Go on from a next state; a stop stays a stop. -/
def Result.andThen : Result → (State → Result) → Result
  | .next s, k => k s
  | .fault f, _ => .fault f
  | .refused r, _ => .refused r

/-! ## SequenceTracker and FrameCodec -/

/-- `seq_next()` (41_sequence.md R94): the new value, stored and returned; 255 wraps to 0. -/
def State.seqNext (s : State) : Byte × State := (s.seq + 1, { s with seq := s.seq + 1 })

/-- The frame `encode` builds (R99, R102): from this instance, with the sequence number after `seq_next`. -/
def State.nextFrame (s : State) (dst : DeviceId) (payload : Bytes) : Frame :=
  { src := s.devid, dst := dst, seq := s.seqNext.1, payload := payload }

/-- `encode(dst, payload)` (42_codec.md R99): nothing for `PayloadTooLarge`, with no state written (R100); else the frame
and the state that holds it in `TXF` and `TXLEN`, the sequence number advanced. -/
def State.encode (s : State) (dst : DeviceId) (payload : Bytes) : Option (Bytes × State) :=
  if payload.length > Config.payloadMax then none
  else
    let f := buildFrame (s.nextFrame dst payload)
    some (f, { s.seqNext.2 with txf := Memory.live f, txLen := BitVec.ofNat 9 f.length })

/-- `decode_rec` of a Frame (R115): the decode unit's registers and `RXP` take its fields. -/
def State.recordFrame (s : State) (fr : Frame) : State :=
  { s with
    rxSrc := fr.src, rxDst := fr.dst, rxSeq := fr.seq, rxLen := BitVec.ofNat 8 fr.payload.length
    rxp := Memory.live fr.payload
    rxValid := true, rxErr := .success, rxAck := fr.isAck }

/-- `decode_rec` of `none(code)` (R115): only `RXSTAT` changes. -/
def State.recordReject (s : State) (e : DecodeError) : State :=
  { s with rxValid := false, rxErr := rejectCode e, rxAck := false }

/-! ## Acceptance of commands -/

/-- A command is taken only in `Idle`; otherwise its presentation has no effect at all (20_memory.md R50, 43_arq.md
R137). -/
def State.whenIdle (s : State) (meaning : State → Result) : Result :=
  if s.arq = .idle then meaning s else .next s

/-- A refused command (60_exceptions.md R176): `Rsp(7, 0, empty)` and nothing else. -/
def State.refuseCommand (s : State) : State := s.respond .refused 0 []

end Sys2Proof.Machine
end

