-- ==== Sys2Proof/Machine/Codec.lean ====
section
/-! DEFINITION. The ENCODE and DECODE commands (42_codec.md R104, R114). -/

namespace Sys2Proof.Machine

/-- ENCODE (R104): `a` is the destination; the frame and its length are answered, or code 1 with no state written. -/
def execEncode (a : BitVec 16) (_reserved : BitVec 8) (data : Bytes) (s : State) : Result :=
  s.whenIdle fun s =>
    match s.encode a data with
    | none => .next (s.respond .payloadTooLarge 0 [])
    | some (f, s') => .next (s'.respond .success (s'.txLen.zeroExtend 32) f)

/-- DECODE (R114): record the decode (R115); answer source and destination with the payload, or the code of the check
that failed; `a` is ignored (R72). -/
def execDecode (_a : BitVec 16) (_reserved : BitVec 8) (data : Bytes) (s : State) : Result :=
  s.whenIdle fun s =>
    match decodeFrame data with
    | .ok fr =>
      .next ((s.recordFrame fr).respond .success
        ((fr.src.zeroExtend 32 <<< 16) + fr.dst.zeroExtend 32) fr.payload)
    | .error e => .next ((s.recordReject e).respond (rejectCode e) 0 [])

end Sys2Proof.Machine
end

