-- ==== Sys2Proof/Machine/Integrity.lean ====
section
/-! DEFINITION. The CRC16 command (40_integrity.md R90). -/

namespace Sys2Proof.Machine

/-- CRC16 (R90): answer `zext_32(crc16(data))`; `a` and the reserved byte are ignored (R72); no register is written and
the command cannot fail. -/
def execCrc16 (_a : BitVec 16) (_reserved : BitVec 8) (data : Bytes) (s : State) : Result :=
  s.whenIdle fun s => .next (s.respond .success ((crc16 data).zeroExtend 32) [])

end Sys2Proof.Machine
end

