-- ==== Sys2Proof/Machine/Arq.lean ====
section
/-! DEFINITION. ARQController: the internal transitions, the run to rest, and the SEND command (43_arq.md). -/

namespace Sys2Proof.Machine

/-- `Sending` (R123): hand `TXF[0..TXLEN]` to the transport; on success wait a full timeout (R124, R128), on failure
resolve with `TransportFailure` (R125). -/
def arqSending (s : State) : Result :=
  match s.txFrame with
  | .error f => .fault f
  | .ok f =>
    if s.txOk then .next { s.emit (.transmit f) with waitRem := s.timeout, arq := .awaitingAck }
    else .next ((s.emit (.transmit f)).resolve .transportFailure)

/-- `Retrying` (R133): one more attempt while `ATTEMPTS < MAXRETRY`, unsigned, else `Exhausted`. -/
def arqRetrying (s : State) : State :=
  if s.attempts < s.maxRetry then { s with attempts := s.attempts + 1, arq := .sending }
  else { s with arq := .exhausted }

/-- `Acknowledged` (R135). -/
def arqAcknowledged (s : State) : State := s.resolve .success

/-- `Exhausted` (R136). -/
def arqExhausted (s : State) : State := s.resolve .retriesExhausted

/-- One internal transition of the table of R119; none at rest. -/
def arqInternal (s : State) : Result :=
  match s.arq with
  | .idle => .next s
  | .awaitingAck => .next s
  | .sending => arqSending s
  | .retrying => .next (arqRetrying s)
  | .acknowledged => .next (arqAcknowledged s)
  | .exhausted => .next (arqExhausted s)

/-- At most `n` internal transitions, stopping at rest. -/
def arqSettle : Nat → State → Result
  | 0, s => .next s
  | n + 1, s => if s.atRest then .next s else (arqInternal s).andThen (arqSettle n)

/-- Run to rest (R139): after the event's own transition at most two internal ones follow. -/
def runToRest (s : State) : Result := arqSettle 2 s

/-- The start of an attempt (R120, R121), after `encode` has built the frame: the outstanding sequence number is the one
the frame got, the counts start afresh, and LLC enters `Sending`. -/
def startAttempt (s : State) : State :=
  { s with outSeq := s.seq, attempts := 0, resultErr := .success, arq := .sending }

/-- SEND (R120): clear `CANCELLED`, build the frame for destination `a`; a payload over 255 bytes is answered with code 1
before anything is sent (R122); else the attempt starts and runs to rest. -/
def execSend (a : BitVec 16) (_reserved : BitVec 8) (data : Bytes) (s : State) : Result :=
  s.whenIdle fun s =>
    let s := { s with cancelled := false }
    match s.encode a data with
    | none => .next ({ s with resultErr := .payloadTooLarge }.respond .payloadTooLarge 0 [])
    | some (_, s') => runToRest (startAttempt s')

/-- `Tick` (R131, R144): in `AwaitingAck` the timer counts down, and at 0 the wait has timed out; elsewhere no effect. -/
def onTick (s : State) : Result :=
  if s.arq = .awaitingAck then
    if s.waitRem - 1 = 0 then
      runToRest { s with waitRem := s.waitRem - 1, resultErr := .ackTimeout, arq := .retrying }
    else .next { s with waitRem := s.waitRem - 1 }
  else .next s

/-- `Cancel` (R132, R138): in `AwaitingAck` the wait is aborted without a transmit; elsewhere no effect. -/
def onCancel (s : State) : Result :=
  if s.arq = .awaitingAck then runToRest { s with cancelled := true, arq := .exhausted } else .next s

end Sys2Proof.Machine
end

