-- ==== Sys2Proof/Machine/Receive.lean ====
section
/-! DEFINITION. What a received buffer does: the receive path in `Idle` (44_receive.md R148) and the ACK check in
`AwaitingAck` (43_arq.md R129, R130). -/

namespace Sys2Proof.Machine

/-- Acknowledge a delivered frame (R152, R153): an ACK frame to its source, naming its sequence number, transmitted once;
the transport's answer goes to `ACKTXFAIL`. `encode` cannot fail here (R148: "cannot fail, length 2"). -/
def sendAck (fr : Frame) (s : State) : State :=
  match s.encode fr.src [Config.ackMark, fr.seq] with
  | none => s
  | some (f, s') =>
    if s'.txOk then { s'.emit (.transmit f) with ackTxFail := false }
    else { s'.emit (.transmit f) with ackTxFail := true }.emit .ackTxFail

/-- The receive path after `decode_rec` returned `fr` (R148): an ACK frame is a stray one and dropped (R150); a data frame
is delivered (R151), whoever it is addressed to (R155), and acknowledged if `AUTOACK` says so. -/
def receiveFrame (fr : Frame) (s : State) : State :=
  if fr.isAck then s
  else if s.autoAck then sendAck fr (s.emit (.deliver fr.src fr.dst fr.seq fr.payload))
  else s.emit (.deliver fr.src fr.dst fr.seq fr.payload)

/-- `ack_matches(fr)` (R134): the sequence number alone is compared, no address. -/
def ackMatches (fr : Frame) (s : State) : Bool := fr.isAck && decide (fr.ackedSeq = s.outSeq)

/-- The ACK check after `decode_rec` returned `fr` (R129, R130): a matching ACK resolves the SEND, all else is dropped. -/
def checkAck (fr : Frame) (s : State) : Result :=
  if ackMatches fr s then runToRest { s with arq := .acknowledged } else .next s

/-- A valid frame received in a resting state (R55). LLC is never in another state between events (R139): there the
buffer has no effect. -/
def onFrame (fr : Frame) (s : State) : Result :=
  match s.arq with
  | .idle => .next (receiveFrame fr (s.recordFrame fr))
  | .awaitingAck => checkAck fr (s.recordFrame fr)
  | .sending | .retrying | .acknowledged | .exhausted => .next s

/-- A buffer that is no frame (R115, R116): `RXSTAT` records it and it is dropped (R149 in `Idle`, R130 in
`AwaitingAck`). -/
def onRejected (e : DecodeError) (s : State) : Result :=
  if s.atRest then .next (s.recordReject e) else .next s

/-- FRAME: a data frame is received (R148 in `Idle`, R130 in `AwaitingAck`). -/
def execFrame (src dst : DeviceId) (seq : Byte) (payload : Bytes) (s : State) : Result :=
  onFrame ⟨src, dst, seq, payload⟩ s

/-- FRAME.ACK: an ACK frame is received (R150 in `Idle`, R129 and R130 in `AwaitingAck`). -/
def execFrameAck (src dst : DeviceId) (seq acked : Byte) (s : State) : Result :=
  onFrame ⟨src, dst, seq, [Config.ackMark, acked]⟩ s

end Sys2Proof.Machine
end

