-- ==== Sys2Proof/Machine/Operands.lean ====
section
/-! DEFINITION. The register space: numbers, and reading `x[r]` (10_state.md R13, 45_regaccess.md R160). -/

namespace Sys2Proof.Machine

/-- The sixteen registers of R13, in the order of their numbers. -/
inductive Reg where
  | devid | seq | maxRetry | timeout | ctrl | status | result | attempts
  | waitRem | outSeq | txLen | rxStat | rxSrc | rxDst | rxSeq | rxLen
deriving DecidableEq, Repr

/-- The register with the number `r`, if `r` is not reserved (R13, R41). -/
def Reg.ofNumber (r : BitVec 8) : Option Reg :=
  match r.toNat with
  | 0 => some .devid
  | 1 => some .seq
  | 2 => some .maxRetry
  | 3 => some .timeout
  | 4 => some .ctrl
  | 5 => some .status
  | 6 => some .result
  | 7 => some .attempts
  | 8 => some .waitRem
  | 9 => some .outSeq
  | 10 => some .txLen
  | 11 => some .rxStat
  | 12 => some .rxSrc
  | 13 => some .rxDst
  | 14 => some .rxSeq
  | 15 => some .rxLen
  | _ => none

/-- `zext_32(x[r])` (R160): the register's value zero-extended, its reserved bits 0. -/
def State.readReg (s : State) : Reg → Value
  | .devid => s.devid.zeroExtend 32
  | .seq => s.seq.zeroExtend 32
  | .maxRetry => s.maxRetry.zeroExtend 32
  | .timeout => s.timeout
  | .ctrl => s.ctrlWord
  | .status => s.statusWord
  | .result => s.resultWord
  | .attempts => s.attempts.zeroExtend 32
  | .waitRem => s.waitRem
  | .outSeq => s.outSeq.zeroExtend 32
  | .txLen => s.txLen.zeroExtend 32
  | .rxStat => s.rxstatWord
  | .rxSrc => s.rxSrc.zeroExtend 32
  | .rxDst => s.rxDst.zeroExtend 32
  | .rxSeq => s.rxSeq.zeroExtend 32
  | .rxLen => s.rxLen.zeroExtend 32

/-- The write of WRREG (R162): the state after it, or nothing where the write is refused (R163 to R165). Only `MAXRETRY`
up to 255, `TIMEOUT` other than 0 and bit 0 of `CTRL` can be written. -/
def State.writeReg (s : State) (r : Reg) (v : Value) : Option State :=
  match r with
  | .maxRetry => if v.toNat ≤ 255 then some { s with maxRetry := v.setWidth 8 } else none
  | .timeout => if v ≠ 0 then some { s with timeout := v } else none
  | .ctrl => some { s with autoAck := v.getLsbD 0 }
  | .devid | .seq | .status | .result | .attempts | .waitRem | .outSeq | .txLen | .rxStat | .rxSrc | .rxDst | .rxSeq
  | .rxLen => none

end Sys2Proof.Machine
end

