-- ==== Sys2Proof/Machine/RegAccess.lean ====
section
/-! DEFINITION. The RDREG and WRREG commands (45_regaccess.md). -/

namespace Sys2Proof.Machine

/-- RDREG (R159): answer the register's value; a reserved number is refused (R161); `v` is ignored (R72). -/
def execRdreg (r : BitVec 8) (_v : Value) (s : State) : Result :=
  s.whenIdle fun s =>
    match Reg.ofNumber r with
    | some x => .next (s.respond .success (s.readReg x) [])
    | none => .next s.refuseCommand

/-- WRREG (R162): write and answer success, or refuse with nothing changed (R163 to R165, R167). -/
def execWrreg (r : BitVec 8) (v : Value) (s : State) : Result :=
  s.whenIdle fun s =>
    match (Reg.ofNumber r).bind (fun x => s.writeReg x v) with
    | some s' => .next (s'.respond .success 0 [])
    | none => .next s.refuseCommand

end Sys2Proof.Machine
end

