-- ==== Sys2Proof/Machine/Dispatch.lean ====
section
/-! DEFINITION. One arm per row of the opcode table. -/

namespace Sys2Proof.Machine

def exec (i : Instr) (s : State) : Host.Outcome State Fault Refusal :=
  match i with
  | .crc16 a reserved data => Sys2Proof.Machine.execCrc16 a reserved data s
  | .encode a reserved data => Sys2Proof.Machine.execEncode a reserved data s
  | .decode a reserved data => Sys2Proof.Machine.execDecode a reserved data s
  | .send a reserved data => Sys2Proof.Machine.execSend a reserved data s
  | .rdreg r v => Sys2Proof.Machine.execRdreg r v s
  | .wrreg r v => Sys2Proof.Machine.execWrreg r v s
  | .frame src dst seq payload => Sys2Proof.Machine.execFrame src dst seq payload s
  | .frameAck src dst seq acked => Sys2Proof.Machine.execFrameAck src dst seq acked s

end Sys2Proof.Machine
end

