-- ==== Sys2Proof/Machine/Events.lean ====
section
/-! DEFINITION. What each event does (20_memory.md R50 to R55), and the state in which a table word is presented next. -/

namespace Sys2Proof.Machine

/-- `Reset` (R191, R192): every register at its reset value, the buffers' bytes unspecified, nothing emitted. What is not
state of LLC stays: the parameters and the inputs to come (R32). -/
def onReset (s : State) : Result :=
  .next { State.resetWith s.params with inbox := s.inbox, txOk := s.txOk, out := s.out }

/-- A command or buffer that the decoder reads no instruction from: a reserved opcode is refused in `Idle` (R77); a buffer
that is no frame is dropped (R116). -/
def onUndecoded (e : DecodeError) (s : State) : Result :=
  match e with
  | .reservedOpcode _ => s.whenIdle fun s => .next s.refuseCommand
  | .commandDataLength => s.whenIdle fun _ => .refused .commandDataLength
  | .malformedFrame => onRejected .malformedFrame s
  | .checksumMismatch => onRejected .checksumMismatch s

/-- Handle a presentation that has an encoding: decode it and run what it encodes. -/
def onWire (w : Wire) (s : State) : Result :=
  match decode w with
  | .ok i => exec i s
  | .error e => onUndecoded e s

/-- Handle one event (R55). -/
def onEvent (e : Event) (s : State) : Result :=
  match e with
  | .cmd word data => onWire (.command word data) s
  | .rxBytes b => onWire (.buffer b) s
  | .tick => onTick s
  | .cancel => onCancel s
  | .reset => onReset s

/-- Take the first input: its event is gone from the inbox, its draw is this step's, and this step has no output yet. -/
def State.takeInput (s : State) (i : Input) (rest : List Input) : State :=
  { s with inbox := rest, txOk := i.txOk, out := [] }

/-- No input arrives: LLC rests (R7), and the step has no output. -/
def State.rest (s : State) : State := { s with out := [] }

/-- The event that presents a wire form. -/
def Wire.event : Wire → Event
  | .command word data => .cmd word data
  | .buffer b => .rxBytes b

/-- The state in which the presentation `w`, with the draw `ok`, is the next input. -/
def State.present (s : State) (w : Wire) (ok : Bool) : State :=
  { s with inbox := ⟨Wire.event w, ok⟩ :: s.inbox }

end Sys2Proof.Machine
end

