-- ==== Sys2Proof/Machine/Step.lean ====
section
/-! DEFINITION. One step (00_scope.md R7): take the next input and handle its event. -/

namespace Sys2Proof.Machine

/-- The step function of R7, with the event and the draw `tx_ok` taken from `inbox` and the outputs left in `out`. -/
def step (s : State) : Host.Outcome State Fault Refusal :=
  match s.inbox with
  | [] => .next s.rest
  | i :: rest => onEvent i.event (s.takeInput i rest)

/-- `s` with the table word `w` of `nbits` bits as its next input, the transport's answer being success (the reading
30_encoding.md R80 gives a line that names none). -/
def State.withFetchWord (s : State) (nbits w : Nat) : State := s.present (tableWire nbits w) true

end Sys2Proof.Machine
end

