-- ==== Sys2Proof/Safety.lean ====
section
/-! DEFINITION. What a safe state is (10_state.md R33), what the ports can present, and what a run emits. -/

namespace Sys2Proof.Machine

/-- `TXF[0..TXLEN]` is a frame (R33 e): its length, delimiters and length byte fit and `decode` accepts it. -/
def State.HoldsFrame (s : State) : Prop :=
  10 ≤ s.txLen.toNat ∧ s.txLen.toNat ≤ 265 ∧
  ∃ f fr, s.txFrame = .ok f ∧ s.txLen.toNat = 10 + (byteAt f 6).toNat ∧ byteAt f 0 = 0xAA ∧
    byteAt f (s.txLen.toNat - 1) = 0x55 ∧ decodeFrame f = .ok fr

/-- The invariant of R33, with the canonical form of both buffers and the codes R21 and R25 admit. -/
structure State.Inv (s : State) : Prop where
  /-- R33 (a): `STATE` at rest is `Idle` or `AwaitingAck`. -/
  rests : s.arq = .idle ∨ s.arq = .awaitingAck
  /-- R9: the parameters are legal. -/
  params_legal : s.params.Legal
  /-- R33 (h): the identity is the parameter. -/
  devid_eq : s.devid = s.params.deviceId
  /-- R33 (b): the timeout is positive. -/
  timeout_pos : 1 ≤ s.timeout.toNat
  /-- R33 (c): a wait has between 1 and `TIMEOUT` ticks left. -/
  wait_bounds : s.arq = .awaitingAck → 1 ≤ s.waitRem.toNat ∧ s.waitRem.toNat ≤ s.timeout.toNat
  /-- R33 (d): no more retries than configured. -/
  attempts_le : s.arq = .awaitingAck → s.attempts.toNat ≤ s.maxRetry.toNat
  /-- R33 (d): a frame is outstanding, and it carries `OUTSEQ`. -/
  outstanding : s.arq = .awaitingAck → s.HoldsFrame ∧ Memory.read s.txf 5 = some s.outSeq
  /-- R33 (e): `TXF` is empty or holds a frame. -/
  tx_frame : s.txLen = 0 ∨ s.HoldsFrame
  /-- R21: the codes `RESULT` can hold. -/
  result_codes : s.resultErr ∈
    [ErrCode.success, .payloadTooLarge, .transportFailure, .ackTimeout, .retriesExhausted]
  /-- R25: the codes `RXSTAT.RXERR` can hold. -/
  rx_codes : s.rxErr ∈ [ErrCode.success, .malformedFrame, .checksumMismatch]
  /-- R33 (f): a valid decode has no error code. -/
  rx_valid : s.rxValid = true → s.rxErr = .success
  /-- R33 (f): `RXACK` says the last decode returned an ACK frame. -/
  rx_ack : s.rxAck = true → s.rxValid = true ∧ s.rxLen = 2 ∧ Memory.read s.rxp 0 = some 0x06
  /-- U16: `TXF` holds the live bytes alone. -/
  tx_live : ∀ k, s.txLen.toNat ≤ k → Memory.read s.txf k = none
  /-- U16: `RXP` holds the live bytes alone. -/
  rx_live : ∀ k, s.rxLen.toNat ≤ k → Memory.read s.rxp k = none
  /-- R27: the live payload has been written. -/
  rx_payload : ∃ p, s.rxPayload = .ok p
  /-- The canonical form of `TXF`. -/
  txf_wf : Memory.wf txfSize s.txf
  /-- The canonical form of `RXP`. -/
  rxp_wf : Memory.wf rxpSize s.rxp

/-- What a port can carry (R72): a Format B command brings exactly `n` data bytes. Everything else can be presented. -/
def Event.Presentable : Event → Prop
  | .cmd w data =>
    CommandWord.op w ∈ [(0x01 : BitVec 8), 0x02, 0x03, 0x04] → data.length = (CommandWord.n w).toNat
  | .rxBytes _ | .tick | .cancel | .reset => True

/-- Is the output a `Transmit`? -/
def Output.isTransmit : Output → Bool
  | .transmit _ => true
  | .rsp _ _ _ | .deliver _ _ _ _ | .ackTxFail => false

/-- Is the output a `Rsp`? -/
def Output.isRsp : Output → Bool
  | .rsp _ _ _ => true
  | .transmit _ | .deliver _ _ _ _ | .ackTxFail => false

/-- `b` with bit `j` of byte `i` flipped (R91, R118). -/
def flipBit (b : Bytes) (i j : Nat) : Bytes := b.set i (byteAt b i ^^^ BitVec.twoPow 8 j)

/-- The ticks after which a wait that gets no ACK ends (43_arq.md R141): what is left of this wait, and a full timeout
for each retry left. -/
def State.ticksLeft (s : State) : Nat :=
  (s.maxRetry.toNat - s.attempts.toNat) * s.timeout.toNat + s.waitRem.toNat

/-- The condition of 43_arq.md R140 on what arrives during a wait for the ACK that names `q`: it is no `Cancel`, no
`Reset` and no such ACK. -/
def Input.Quiet (q : Byte) (i : Input) : Prop :=
  match i.event with
  | .tick | .cmd _ _ => True
  | .rxBytes b => ∀ fr, decodeFrame b = .ok fr → fr.isAck = true → fr.ackedSeq ≠ q
  | .cancel | .reset => False

/-- The number of ticks among inputs. -/
def ticksOf (is : List Input) : Nat := is.countP fun i => decide (i.event = .tick)

/-- The condition of R140 on the draws, for a wait of `d` ticks: every transmit succeeds. A retransmission is made by the
tick that completes a multiple of `d` ticks (R141); every other input transmits nothing, and its draw is ignored (R7). -/
def TransmitsSucceed (d : Nat) (is : List Input) : Prop :=
  ∀ before i after, is = before ++ i :: after → i.event = .tick → d ∣ ticksOf before + 1 → i.txOk = true

/-- Two states that no event tells apart (10_state.md R30, R31), but for a RDREG that reads a record: equal in `STATE`,
the identity, `SEQ`, the configuration, the parameters and the inputs, and while an attempt is pending also in its
`OUTSEQ`, `ATTEMPTS`, `WAITREM` and the frame a retry would transmit. -/
structure State.Alike (s x : State) : Prop where
  arq : x.arq = s.arq
  devid : x.devid = s.devid
  seq : x.seq = s.seq
  maxRetry : x.maxRetry = s.maxRetry
  timeout : x.timeout = s.timeout
  autoAck : x.autoAck = s.autoAck
  params : x.params = s.params
  inbox : x.inbox = s.inbox
  pending : s.arq = .awaitingAck →
    x.outSeq = s.outSeq ∧ x.attempts = s.attempts ∧ x.waitRem = s.waitRem ∧ x.txFrame = s.txFrame

/-- Does the instruction run `encode` successfully when LLC takes it in `Idle` (41_sequence.md R95)? -/
def Instr.encodes (autoAck : Bool) : Instr → Bool
  | .encode _ _ data | .send _ _ data => decide (data.length ≤ 255)
  | .frame _ _ _ _ => autoAck
  | .crc16 _ _ _ | .decode _ _ _ | .rdreg _ _ | .wrreg _ _ | .frameAck _ _ _ _ => false

/-- Does the next step run `encode` successfully (R95)? -/
def State.encodesNext (s : State) : Bool :=
  match s.inbox with
  | [] => false
  | i :: _ =>
    decide (s.arq = .idle) &&
      match i.event with
      | .cmd word data =>
        match decode (.command word data) with
        | .ok j => Instr.encodes s.autoAck j
        | .error _ => false
      | .rxBytes b =>
        match decode (.buffer b) with
        | .ok j => Instr.encodes s.autoAck j
        | .error _ => false
      | .tick | .cancel | .reset => false

/-- The frames that outputs hand out: the bytes of a `Transmit`, the data of a successful `Rsp`. -/
def framesOf (os : List Output) : List Bytes :=
  os.filterMap fun
    | .transmit b => some b
    | .rsp .success _ data => some data
    | .rsp _ _ _ | .deliver _ _ _ _ | .ackTxFail => none

/-- `n` steps: the state they lead to and the frames handed out by those that encode, in order; nothing if a step stops.
A retransmission encodes nothing. -/
def runEncodes : Nat → State → Option (State × List Bytes)
  | 0, s => some (s, [])
  | n + 1, s =>
    match step s with
    | .next s' => (runEncodes n s').map fun r => (r.1, (if s.encodesNext then framesOf s'.out else []) ++ r.2)
    | .fault _ => none
    | .refused _ => none

/-- `k` steps: the state they lead to and all their outputs, in order; nothing if a step stops. -/
def runOutputs : Nat → State → Option (State × List Output)
  | 0, s => some (s, [])
  | k + 1, s =>
    match step s with
    | .next s' => (runOutputs k s').map fun r => (r.1, s'.out ++ r.2)
    | .fault _ => none
    | .refused _ => none

end Sys2Proof.Machine
end

