-- ==== Sys2Proof/Certificates/Slice0/Obligations.lean ====
section
/-! DEFINITION. The statements for the provers, in the order of the spec's files: encodings, IntegrityCheck, FrameCodec,
register access, ARQController, the receive path, the whole machine. -/

open Sys2Proof Sys2Proof.Machine

/-! ## Encodings (30_encoding.md) -/

/-- Decoding the encoding of a well-formed instruction gives it back: every row of the opcode table, every operand at
every value the encoding admits (R72 to R75 for commands, R63 to R70 for frames). -/
def Obligations.DecodeOfEncodeIsTheInstruction : Prop :=
  ∀ i : Instr, i.wf = true → decode (encode i) = .ok i

/-- What the decoder reads is well-formed, and encoding it gives back the very presentation it was read from (a Format R
command has no data, R72; that the model disregards data which comes with one is its own choice, log entry 19). -/
def Obligations.EncodeOfDecodeIsThePresentation : Prop :=
  ∀ (w : Wire) (i : Instr), decode w = .ok i →
    i.wf = true ∧
    match w with
    | .buffer raw => encode i = .buffer raw
    | .command word data =>
      encode i = .command word (if CommandWord.op word = 0x05 ∨ CommandWord.op word = 0x06 then [] else data)

/-- The decoder for command words of R75, with the fields of R72 as numbers: `op` is bits 47:40, `a` 39:24, `n` 23:8,
`r` 39:32, `v` 31:0; any other `op` is reserved. That
data which comes with `op` 5 or 6, which R72 excludes, or with a reserved `op` is disregarded is THE MODEL'S CHOICE, log
entry 19. -/
def Obligations.CommandWordFieldsAndReservedOpcodes : Prop :=
  ∀ (w : CommandWord) (data : Bytes),
    let op := w.toNat / 2 ^ 40
    let a := BitVec.ofNat 16 (w.toNat / 2 ^ 24)
    let low := BitVec.ofNat 8 w.toNat
    let r := BitVec.ofNat 8 (w.toNat / 2 ^ 32)
    let v := BitVec.ofNat 32 w.toNat
    (data.length = w.toNat / 2 ^ 8 % 2 ^ 16 →
      (op = 1 → decode (.command w data) = .ok (.crc16 a low data)) ∧
      (op = 2 → decode (.command w data) = .ok (.encode a low data)) ∧
      (op = 3 → decode (.command w data) = .ok (.decode a low data)) ∧
      (op = 4 → decode (.command w data) = .ok (.send a low data))) ∧
    (op = 5 → decode (.command w data) = .ok (.rdreg r v)) ∧
    (op = 6 → decode (.command w data) = .ok (.wrreg r v)) ∧
    (op = 0 ∨ 7 ≤ op → decode (.command w data) = .error (.reservedOpcode (BitVec.ofNat 8 op)))

/-- Words and frames of 95_test_vectors.md, one for each row of the opcode table, decode to what they stand for
(V-C8, V-F2, V-D1, P2 line 7, V-G4, V-G10, F2, K1). -/
def Obligations.WrittenOutEncodingsDecode : Prop :=
  decode (.command 0x010000000900 [0x31, 0x32, 0x33, 0x34, 0x35, 0x36, 0x37, 0x38, 0x39]) =
    .ok (.crc16 0 0 [0x31, 0x32, 0x33, 0x34, 0x35, 0x36, 0x37, 0x38, 0x39]) ∧
  decode (.command 0x02ABCD000200 [0x48, 0x69]) = .ok (.encode 0xABCD 0 [0x48, 0x69]) ∧
  decode (.command 0x030000000A00 [0xAA, 0x00, 0x01, 0x00, 0x02, 0x01, 0x00, 0xF9, 0x10, 0x55]) =
    .ok (.decode 0 0 [0xAA, 0x00, 0x01, 0x00, 0x02, 0x01, 0x00, 0xF9, 0x10, 0x55]) ∧
  decode (.command 0x041234000200 [0x6F, 0x6B]) = .ok (.send 0x1234 0 [0x6F, 0x6B]) ∧
  decode (.command 0x050300000000 []) = .ok (.rdreg 3 0) ∧
  decode (.command 0x060200000100 []) = .ok (.wrreg 2 256) ∧
  decode (.buffer [0xAA, 0x12, 0x34, 0xAB, 0xCD, 0x01, 0x02, 0x48, 0x69, 0x4A, 0x11, 0x55]) =
    .ok (.frame 0x1234 0xABCD 1 [0x48, 0x69]) ∧
  decode (.buffer [0xAA, 0xAB, 0xCD, 0x12, 0x34, 0x01, 0x02, 0x06, 0x01, 0x4B, 0x18, 0x55]) =
    .ok (.frameAck 0xABCD 0x1234 1 1)

/-- The 40-bit response word (R76): five reserved zeros, the error code of R169, `val`. -/
def Obligations.ResponseWordLayout : Prop :=
  ∀ (err : ErrCode) (val : Value),
    (responseWord err val).toNat = err.code.toNat * 2 ^ 32 + val.toNat ∧
    ErrCode.code .success = 0 ∧ ErrCode.code .payloadTooLarge = 1 ∧ ErrCode.code .malformedFrame = 2 ∧
    ErrCode.code .checksumMismatch = 3 ∧ ErrCode.code .transportFailure = 4 ∧ ErrCode.code .ackTimeout = 5 ∧
    ErrCode.code .retriesExhausted = 6 ∧ ErrCode.code .refused = 7

/-! ## IntegrityCheck (40_integrity.md) -/

/-- The check value of the CRC variant (R86) and the two worked values of R87. -/
def Obligations.CrcCheckValues : Prop :=
  crc16 [0x31, 0x32, 0x33, 0x34, 0x35, 0x36, 0x37, 0x38, 0x39] = 0x29B1 ∧ crc16 [] = 0xFFFF ∧ crc16 [0x00] = 0xE1F0

/-- The CRC detects every single-bit error (R91). -/
def Obligations.CrcDetectsEverySingleBitError : Prop :=
  ∀ (b : Bytes) (i j : Nat), i < b.length → j < 8 → crc16 (flipBit b i j) ≠ crc16 b

/-- The equivalent form of the verifier (R89): appending a 16-bit value, high byte first, drives the register to zero
exactly when the value is the checksum. -/
def Obligations.CrcResidueIsZeroExactlyForTheChecksum : Prop :=
  ∀ (covered : Bytes) (c : Crc), crc16 (covered ++ [hiByte c, loByte c]) = 0 ↔ c = crc16 covered

/-- CRC16 (R90): in `Idle` it completes with the checksum zero-extended, and changes nothing but the outputs. -/
def Obligations.Crc16AnswersTheChecksum : Prop :=
  ∀ (a : BitVec 16) (low : BitVec 8) (data : Bytes) (s : State), s.arq = .idle →
    exec (.crc16 a low data) s =
      .next { s with out := s.out ++ [.rsp .success (BitVec.ofNat 32 (crc16 data).toNat) []] }

/-! ## FrameCodec (42_codec.md) -/

/-- The layout `encode` gives a frame (R102) and the checksum it embeds (R103). -/
def Obligations.EncodedFrameLayout : Prop :=
  ∀ (s : State) (dst : DeviceId) (p : Bytes), p.length ≤ 255 →
    ∃ f t, s.encode dst p = some (f, t) ∧
      let c := crc16 (slice f 1 (7 + p.length))
      f.length = 10 + p.length ∧
      byteAt f 0 = 0xAA ∧
      (byteAt f 1).toNat = s.devid.toNat / 256 ∧ (byteAt f 2).toNat = s.devid.toNat % 256 ∧
      (byteAt f 3).toNat = dst.toNat / 256 ∧ (byteAt f 4).toNat = dst.toNat % 256 ∧
      (byteAt f 5).toNat = (s.seq.toNat + 1) % 256 ∧
      (byteAt f 6).toNat = p.length ∧
      (∀ i, i < p.length → byteAt f (7 + i) = byteAt p i) ∧
      (byteAt f (7 + p.length)).toNat = c.toNat / 256 ∧ (byteAt f (8 + p.length)).toNat = c.toNat % 256 ∧
      byteAt f (9 + p.length) = 0x55

/-- The round trip (R117): what `encode` builds decodes to a Frame from this instance, to the destination, with the new
sequence number and the payload. -/
def Obligations.EncodedFrameDecodesBack : Prop :=
  ∀ (s : State) (dst : DeviceId) (p : Bytes), p.length ≤ 255 →
    ∃ f t, s.encode dst p = some (f, t) ∧
      decodeFrame f = .ok { src := s.devid, dst := dst, seq := t.seq, payload := p } ∧ t.seq = s.seq + 1

/-- `decode` accepts exactly the frames that can be built (R106, D4), and returns the frame they were built from. -/
def Obligations.DecodeAcceptsExactlyTheBuiltFrames : Prop :=
  ∀ (raw : Bytes) (fr : Frame), decodeFrame raw = .ok fr ↔ fr.payload.length ≤ 255 ∧ raw = buildFrame fr

/-- The five rejections of `decode` and the code of each (R107 to R111). -/
def Obligations.DecodeRejectionCodes : Prop :=
  ∀ raw : Bytes,
    (raw.length < 10 → decodeFrame raw = .error .malformedFrame) ∧
    (raw[0]? ≠ some 0xAA → decodeFrame raw = .error .malformedFrame) ∧
    (raw[raw.length - 1]? ≠ some 0x55 → decodeFrame raw = .error .malformedFrame) ∧
    (raw.length ≠ 10 + (byteAt raw 6).toNat → decodeFrame raw = .error .malformedFrame) ∧
    (10 ≤ raw.length → raw[0]? = some 0xAA → raw[raw.length - 1]? = some 0x55 →
      raw.length = 10 + (byteAt raw 6).toNat →
      (crc16 (slice raw 1 (7 + (byteAt raw 6).toNat))).toNat ≠
        (byteAt raw (7 + (byteAt raw 6).toNat)).toNat * 256 + (byteAt raw (8 + (byteAt raw 6).toNat)).toNat →
      decodeFrame raw = .error .checksumMismatch)

/-- The rejection properties (R118): a proper prefix, a frame with bytes after it and a buffer without the footer are
malformed; a single flipped bit is rejected, as malformed in the header, the length byte and the footer, as a wrong
checksum elsewhere. -/
def Obligations.DamagedFramesAreRejected : Prop :=
  (∀ fr : Frame, fr.payload.length ≤ 255 →
    (∀ k, k < (buildFrame fr).length → decodeFrame ((buildFrame fr).take k) = .error .malformedFrame) ∧
    (∀ extra : Bytes, extra ≠ [] → decodeFrame (buildFrame fr ++ extra) = .error .malformedFrame) ∧
    (∀ i j, i < (buildFrame fr).length → j < 8 →
      decodeFrame (flipBit (buildFrame fr) i j) =
        .error (if i = 0 ∨ i = 6 ∨ i + 1 = (buildFrame fr).length then .malformedFrame else .checksumMismatch))) ∧
  (∀ raw : Bytes, raw.getLast? ≠ some 0x55 → decodeFrame raw = .error .malformedFrame)

/-- ENCODE (R104): in `Idle` it completes. With at most 255 payload bytes the frame and its length are answered, `SEQ`
advances and `TXF[0..TXLEN]` is the frame; with more, code 1 is answered. No other register changes, and `RXP` stays (for
the rest of `TXF`: `BuffersHoldExactlyTheLastWrite`). -/
def Obligations.EncodeAnswersTheFrame : Prop :=
  ∀ (a : BitVec 16) (low : BitVec 8) (data : Bytes) (s : State), s.arq = .idle →
    let f := buildFrame { src := s.devid, dst := a, seq := s.seq + 1, payload := data }
    (data.length ≤ 255 →
      ∃ t, exec (.encode a low data) s = .next t ∧
        t = { s with
              seq := s.seq + 1, txLen := BitVec.ofNat 9 (10 + data.length), txf := t.txf
              out := s.out ++ [.rsp .success (BitVec.ofNat 32 (10 + data.length)) f] } ∧
        t.txFrame = .ok f) ∧
    (255 < data.length →
      exec (.encode a low data) s = .next { s with out := s.out ++ [.rsp .payloadTooLarge 0 []] })

/-- The size check (R100): `encode` fails on a payload of 256 bytes or more and on no other, and a failure writes nothing:
ENCODE answers it with code 1 and changes no register and no byte of a buffer. The empty payload gives a 10-byte frame. -/
def Obligations.EncodeFailsExactlyOnLongPayloads : Prop :=
  (∀ (s : State) (dst : DeviceId) (p : Bytes), s.encode dst p = none ↔ 255 < p.length) ∧
  (∀ (a : BitVec 16) (low : BitVec 8) (data : Bytes) (s : State), s.arq = .idle → 255 < data.length →
    exec (.encode a low data) s = .next { s with out := s.out ++ [.rsp .payloadTooLarge 0 []] }) ∧
  ∀ (s : State) (dst : DeviceId), ∃ f t, s.encode dst [] = some (f, t) ∧ f.length = 10

/-- DECODE (R114, R115): in `Idle` it completes. A frame is recorded and answered with source and destination as `val`
and the payload as data; anything else only sets `RXSTAT` and is answered with code 2 or 3. No other register changes, and
`TXF` stays (for the rest of `RXP`: `BuffersHoldExactlyTheLastWrite`). -/
def Obligations.DecodeCommandAnswers : Prop :=
  ∀ (a : BitVec 16) (low : BitVec 8) (data : Bytes) (s : State), s.arq = .idle →
    (∀ fr, decodeFrame data = .ok fr →
      ∃ t, exec (.decode a low data) s = .next t ∧
        t = { s with
              rxSrc := fr.src, rxDst := fr.dst, rxSeq := fr.seq, rxLen := BitVec.ofNat 8 fr.payload.length
              rxp := t.rxp, rxValid := true, rxErr := .success
              rxAck := decide (fr.payload.length = 2 ∧ byteAt fr.payload 0 = 0x06)
              out := s.out ++ [.rsp .success (fr.src ++ fr.dst) fr.payload] } ∧
        t.rxPayload = .ok fr.payload) ∧
    (∀ e, decodeFrame data = .error e →
      ∃ code : ErrCode, (code = .malformedFrame ∨ code = .checksumMismatch) ∧
        (code = .checksumMismatch ↔ e = .checksumMismatch) ∧
        exec (.decode a low data) s =
          .next { s with rxValid := false, rxErr := code, rxAck := false, out := s.out ++ [.rsp code 0 []] })

/-! ## Register access (45_regaccess.md) -/

/-- RDREG (R159 to R161, R166): in `Idle` it completes; the sixteen registers read zero-extended with their reserved bits
0, and `STATUS` with `STATE = 0` and `BUSY = 0`; the numbers 16 to 255 are refused; only the outputs change. -/
def Obligations.RdregAnswersTheRegister : Prop :=
  ∀ (r : BitVec 8) (v : Value) (s : State), s.arq = .idle →
    let table : List Nat :=
      [s.devid.toNat, s.seq.toNat, s.maxRetry.toNat, s.timeout.toNat, s.autoAck.toNat,
       16 * s.cancelled.toNat + 32 * s.ackTxFail.toNat, s.resultErr.code.toNat, s.attempts.toNat,
       s.waitRem.toNat, s.outSeq.toNat, s.txLen.toNat,
       s.rxValid.toNat + 2 * s.rxErr.code.toNat + 16 * s.rxAck.toNat,
       s.rxSrc.toNat, s.rxDst.toNat, s.rxSeq.toNat, s.rxLen.toNat]
    exec (.rdreg r v) s =
      match table[r.toNat]? with
      | some x => .next { s with out := s.out ++ [.rsp .success (BitVec.ofNat 32 x) []] }
      | none => .next { s with out := s.out ++ [.rsp .refused 0 []] }

/-- WRREG (R162 to R165, R167): in `Idle` it completes; it writes `MAXRETRY` (values to 255), `TIMEOUT` (values other than
0) or bit 0 of `CTRL`; every other register number and value is refused with nothing changed. -/
def Obligations.WrregWritesOrRefuses : Prop :=
  ∀ (r : BitVec 8) (v : Value) (s : State), s.arq = .idle →
    exec (.wrreg r v) s = .next
      (if r = 2 ∧ v.toNat ≤ 255 then
        { s with maxRetry := BitVec.ofNat 8 v.toNat, out := s.out ++ [.rsp .success 0 []] }
      else if r = 3 ∧ v ≠ 0 then { s with timeout := v, out := s.out ++ [.rsp .success 0 []] }
      else if r = 4 then
        { s with autoAck := decide (v.toNat % 2 = 1), out := s.out ++ [.rsp .success 0 []] }
      else { s with out := s.out ++ [.rsp .refused 0 []] })

/-! ## ARQController (43_arq.md) -/

/-- The internal transition of `Sending` (R123 to R125): one `Transmit` of `TXF[0..TXLEN]`; on success LLC waits a full
timeout, on failure the SEND resolves with code 4 and the retries used, with no wait and no retry. -/
def Obligations.SendingTransmitsOnce : Prop :=
  ∀ (s : State) (f : Bytes), s.arq = .sending → s.txFrame = .ok f →
    arqInternal s = .next
      (if s.txOk then
        { s with waitRem := s.timeout, arq := .awaitingAck, out := s.out ++ [.transmit f] }
      else
        { s with
          resultErr := .transportFailure, arq := .idle
          out := s.out ++ [.transmit f, .rsp .transportFailure (BitVec.ofNat 32 s.attempts.toNat) []] })

/-- SEND that starts (R120, R121, R123): in `Idle`, with at most 255 payload bytes, it completes. The frame is built once
and transmitted; on success LLC waits, on failure it answers code 4 and stays in `Idle`. No other register changes, and
`RXP` stays (for the rest of `TXF`: `BuffersHoldExactlyTheLastWrite`). -/
def Obligations.SendStartsTheAttempt : Prop :=
  ∀ (a : BitVec 16) (low : BitVec 8) (data : Bytes) (s : State), s.arq = .idle → data.length ≤ 255 →
    let f := buildFrame { src := s.devid, dst := a, seq := s.seq + 1, payload := data }
    ∃ t, exec (.send a low data) s = .next t ∧
      t = { s with
            seq := s.seq + 1, outSeq := s.seq + 1, attempts := 0, cancelled := false
            txLen := BitVec.ofNat 9 (10 + data.length), txf := t.txf
            resultErr := if s.txOk then .success else .transportFailure
            waitRem := if s.txOk then s.timeout else s.waitRem
            arq := if s.txOk then .awaitingAck else .idle
            out := s.out ++
              (if s.txOk then [.transmit f] else [.transmit f, .rsp .transportFailure 0 []]) } ∧
      t.txFrame = .ok f

/-- SEND of a payload over 255 bytes (R122): code 1, no `Transmit`, and only `CANCELLED` and `RESULT` are written. -/
def Obligations.SendRefusesLongPayloads : Prop :=
  ∀ (a : BitVec 16) (low : BitVec 8) (data : Bytes) (s : State), s.arq = .idle → 255 < data.length →
    exec (.send a low data) s =
      .next { s with
              cancelled := false, resultErr := .payloadTooLarge
              out := s.out ++ [.rsp .payloadTooLarge 0 []] }

/-- `Tick` in `AwaitingAck` (R131, R133, R126): before the deadline only `WAITREM` falls. At the deadline the same bytes
are transmitted again while `ATTEMPTS < MAXRETRY`, with a full timeout (or code 4 if the transport fails), and otherwise
the SEND is answered with code 6. `SEQ`, `OUTSEQ` and `TXF` never move. -/
def Obligations.TickDuringTheWait : Prop :=
  ∀ (s : State) (ok : Bool) (rest : List Input) (f : Bytes),
    s.arq = .awaitingAck → s.inbox = ⟨.tick, ok⟩ :: rest → 1 ≤ s.waitRem.toNat → s.txFrame = .ok f →
    step s = .next
      (if s.waitRem ≠ 1 then
        { s with inbox := rest, txOk := ok, out := [], waitRem := s.waitRem - 1 }
      else if s.attempts.toNat < s.maxRetry.toNat then
        if ok then
          { s with
            inbox := rest, txOk := ok, out := [.transmit f], waitRem := s.timeout
            attempts := s.attempts + 1, resultErr := .ackTimeout }
        else
          { s with
            inbox := rest, txOk := ok, waitRem := 0, attempts := s.attempts + 1
            resultErr := .transportFailure, arq := .idle
            out := [.transmit f, .rsp .transportFailure (BitVec.ofNat 32 (s.attempts.toNat + 1)) []] }
      else
        { s with
          inbox := rest, txOk := ok, waitRem := 0, resultErr := .retriesExhausted, arq := .idle
          out := [.rsp .retriesExhausted (BitVec.ofNat 32 s.attempts.toNat) []] })

/-- `Cancel` in `AwaitingAck` (R132, R136): `CANCELLED` is set, the SEND is answered with code 6 and the retries used, and
nothing is transmitted; `ATTEMPTS` and `WAITREM` keep their values. -/
def Obligations.CancelAbortsTheWait : Prop :=
  ∀ (s : State) (ok : Bool) (rest : List Input),
    s.arq = .awaitingAck → s.inbox = ⟨.cancel, ok⟩ :: rest →
    step s = .next
      { s with
        inbox := rest, txOk := ok, cancelled := true, resultErr := .retriesExhausted, arq := .idle
        out := [.rsp .retriesExhausted (BitVec.ofNat 32 s.attempts.toNat) []] }

/-- `Tick` and `Cancel` in `Idle` have no effect (R138, R144): only the input is gone. -/
def Obligations.TickAndCancelInIdleDoNothing : Prop :=
  ∀ (s : State) (e : Event) (ok : Bool) (rest : List Input),
    s.arq = .idle → s.inbox = ⟨e, ok⟩ :: rest → e = .tick ∨ e = .cancel →
    step s = .next { s with inbox := rest, txOk := ok, out := [] }

/-- `Cmd` in `AwaitingAck` (R137): whatever the word and the data, no effect and no output. R50 and R137 say
"not consumed", "not taken"; that the presentation is nevertheless gone from the inbox is THE MODEL'S CHOICE, log entry
5. -/
def Obligations.CommandsDuringTheWaitDoNothing : Prop :=
  ∀ (s : State) (word : CommandWord) (data : Bytes) (ok : Bool) (rest : List Input),
    s.arq = .awaitingAck → s.inbox = ⟨.cmd word data, ok⟩ :: rest →
    step s = .next { s with inbox := rest, txOk := ok, out := [] }

/-- The matching ACK (R129, R134, R135): in `AwaitingAck`, an ACK frame that names `OUTSEQ` resolves the SEND with code 0
and the retries used, whatever node it comes from, whatever node it is addressed to and whatever its own sequence number
is. The decode unit records it; no other register changes, and `TXF` stays (for the rest of `RXP`:
`BuffersHoldExactlyTheLastWrite`). -/
def Obligations.MatchingAckResolvesTheSend : Prop :=
  ∀ (src dst : DeviceId) (q : Byte) (s : State), s.arq = .awaitingAck →
    ∃ t, exec (.frameAck src dst q s.outSeq) s = .next t ∧
      t = { s with
            rxSrc := src, rxDst := dst, rxSeq := q, rxLen := 2, rxp := t.rxp
            rxValid := true, rxErr := .success, rxAck := true
            resultErr := .success, arq := .idle
            out := s.out ++ [.rsp .success (BitVec.ofNat 32 s.attempts.toNat) []] } ∧
      t.rxPayload = .ok [0x06, s.outSeq]

/-- Everything else during the wait (R130): an ACK frame that names another number and a data frame are recorded by the
decode unit and dropped, a buffer that is no frame is recorded in `RXSTAT` alone; nothing is emitted, the wait is neither
shortened nor extended, no other register changes, and `TXF` stays (for the rest of `RXP`:
`BuffersHoldExactlyTheLastWrite`). -/
def Obligations.EverythingElseDuringTheWaitIsDropped : Prop :=
  (∀ (src dst : DeviceId) (q : Byte) (s : State), s.arq = .awaitingAck →
    (∀ acked, acked ≠ s.outSeq →
      ∃ t, exec (.frameAck src dst q acked) s = .next t ∧
        t = { s with
              rxSrc := src, rxDst := dst, rxSeq := q, rxLen := 2, rxp := t.rxp
              rxValid := true, rxErr := .success, rxAck := true } ∧
        t.rxPayload = .ok [0x06, acked]) ∧
    (∀ p, Instr.wf (.frame src dst q p) = true →
      ∃ t, exec (.frame src dst q p) s = .next t ∧
        t = { s with
              rxSrc := src, rxDst := dst, rxSeq := q, rxLen := BitVec.ofNat 8 p.length, rxp := t.rxp
              rxValid := true, rxErr := .success, rxAck := false } ∧
        t.rxPayload = .ok p)) ∧
  (∀ (s : State) (b : Bytes) (e : DecodeError) (ok : Bool) (rest : List Input),
    s.arq = .awaitingAck → s.inbox = ⟨.rxBytes b, ok⟩ :: rest → decodeFrame b = .error e →
    step s = .next
      { s with
        inbox := rest, txOk := ok, out := [], rxValid := false, rxAck := false
        rxErr := if e = .checksumMismatch then .checksumMismatch else .malformedFrame })

/-- Run to rest (R139). Wherever it completes it ends in `Idle` or `AwaitingAck`, has appended to the outputs only, and at
most one of them is a `Transmit`. It always ends: it completes from each of the six states, if the frame it has to
transmit (in `Sending`, or in `Retrying` with retries left) can be read. And two internal transitions are enough: allowing
more of them changes nothing. -/
def Obligations.RunToRestEndsAtRest : Prop :=
  (∀ s t : State, runToRest s = .next t →
    (t.arq = .idle ∨ t.arq = .awaitingAck) ∧
    ∃ os, t.out = s.out ++ os ∧ (os.filter Output.isTransmit).length ≤ 1) ∧
  (∀ s : State,
    (s.arq = .sending ∨ (s.arq = .retrying ∧ s.attempts.toNat < s.maxRetry.toNat) → ∃ f, s.txFrame = .ok f) →
    ∃ t, runToRest s = .next t) ∧
  ∀ (s : State) (n : Nat), arqSettle (2 + n) s = runToRest s

/-- The waiting bound (R141, second sentence): with at most `ticksLeft` ticks before it ends, every tick of a wait uses
one up or ends it, and no other event but `Reset` changes what is left unless it ends the wait. -/
def Obligations.EveryTickOfTheWaitCounts : Prop :=
  ∀ (s t : State) (e : Event) (ok : Bool) (rest : List Input),
    s.Inv → s.arq = .awaitingAck → s.inbox = ⟨e, ok⟩ :: rest → step s = .next t → e ≠ .reset →
    t.arq = .idle ∨
      (t.arq = .awaitingAck ∧ t.ticksLeft + (if e = .tick then 1 else 0) = s.ticksLeft)

/-- Exhaustion (R140, and the ticks of R141): if a SEND is followed by quiet inputs, no `Cancel`, no `Reset`, no matching
ACK, and every transmit succeeds, then after `c` ticks, fewer than `(MAXRETRY + 1) * TIMEOUT`, the same bytes have been
transmitted `c / TIMEOUT + 1` times and nothing else has been emitted; the tick that makes them `(MAXRETRY + 1) * TIMEOUT`
answers code 6 and `MAXRETRY`, after `MAXRETRY + 1` transmissions in all. That a command among the quiet inputs is gone
from the inbox is THE MODEL'S reading of "not taken", log entry 5. -/
def Obligations.SendWithoutAckIsExhausted : Prop :=
  ∀ (a : BitVec 16) (low : BitVec 8) (data : Bytes) (s : State) (quiet rest : List Input),
    s.arq = .idle → 1 ≤ s.timeout.toNat → data.length ≤ 255 → (∀ i ∈ quiet, i.Quiet (s.seq + 1)) →
    TransmitsSucceed s.timeout.toNat quiet →
    s.inbox = ⟨Wire.event (encode (.send a low data)), true⟩ :: (quiet ++ rest) →
    let m := s.maxRetry.toNat
    let d := s.timeout.toNat
    let f := buildFrame { src := s.devid, dst := a, seq := s.seq + 1, payload := data }
    (ticksOf quiet < (m + 1) * d →
      ∃ t, runOutputs (1 + quiet.length) s = some (t, List.replicate (ticksOf quiet / d + 1) (.transmit f)) ∧
        t.arq = .awaitingAck ∧ t.seq = s.seq + 1 ∧ t.inbox = rest) ∧
    (ticksOf quiet + 1 = (m + 1) * d → ∀ ok rest', rest = ⟨.tick, ok⟩ :: rest' →
      ∃ t, runOutputs (2 + quiet.length) s =
          some (t, List.replicate (m + 1) (.transmit f) ++ [.rsp .retriesExhausted (BitVec.ofNat 32 m) []]) ∧
        t.arq = .idle ∧ t.resultErr = .retriesExhausted ∧ t.seq = s.seq + 1 ∧ t.inbox = rest')

/-- The success path (R142): after a SEND and quiet inputs with `c` ticks, fewer than `(MAXRETRY + 1) * TIMEOUT`, every
transmit succeeding, an ACK that names the frame's sequence number arrives during the wait after the `c / TIMEOUT`-th retry: it gives
`c / TIMEOUT + 1` transmissions of the same bytes and then `Rsp(0, c / TIMEOUT, empty)`; with `c` below `TIMEOUT` that is
one `Transmit` and `Rsp(0, 0, empty)`. That a command among the quiet inputs is gone from the inbox is THE MODEL'S reading
of "not taken", log entry 5. -/
def Obligations.SendWithAckIsAcknowledged : Prop :=
  ∀ (a : BitVec 16) (low : BitVec 8) (data : Bytes) (s : State) (quiet : List Input) (src dst : DeviceId) (q : Byte)
    (ok : Bool) (rest : List Input),
    s.arq = .idle → 1 ≤ s.timeout.toNat → data.length ≤ 255 → (∀ i ∈ quiet, i.Quiet (s.seq + 1)) →
    TransmitsSucceed s.timeout.toNat quiet →
    ticksOf quiet < (s.maxRetry.toNat + 1) * s.timeout.toNat →
    s.inbox = ⟨Wire.event (encode (.send a low data)), true⟩ ::
      (quiet ++ ⟨Wire.event (encode (.frameAck src dst q (s.seq + 1))), ok⟩ :: rest) →
    let f := buildFrame { src := s.devid, dst := a, seq := s.seq + 1, payload := data }
    let n := ticksOf quiet / s.timeout.toNat
    ∃ t, runOutputs (2 + quiet.length) s =
        some (t, List.replicate (n + 1) (.transmit f) ++ [.rsp .success (BitVec.ofNat 32 n) []]) ∧
      t.arq = .idle ∧ t.resultErr = .success ∧ t.seq = s.seq + 1 ∧ t.inbox = rest

/-! ## The receive path (44_receive.md) -/

/-- A data frame in `Idle` (R148, R151 to R153, R155 to R157): it completes. Whoever it is addressed to, the frame is
recorded and delivered; with `AUTOACK = 1` an ACK frame to its source that names its sequence number is then built with a
fresh sequence number and transmitted once, and a failure is recorded and reported last; with `AUTOACK = 0` nothing is
built and nothing transmitted. No other register changes (for the rest of the buffers:
`BuffersHoldExactlyTheLastWrite`). -/
def Obligations.DataFrameIsDeliveredAndAcknowledged : Prop :=
  ∀ (src dst : DeviceId) (q : Byte) (p : Bytes) (s : State),
    s.arq = .idle → Instr.wf (.frame src dst q p) = true →
    let f := buildFrame { src := s.devid, dst := src, seq := s.seq + 1, payload := [0x06, q] }
    ∃ t, exec (.frame src dst q p) s = .next t ∧
      t = { s with
            rxSrc := src, rxDst := dst, rxSeq := q, rxLen := BitVec.ofNat 8 p.length, rxp := t.rxp
            rxValid := true, rxErr := .success, rxAck := false
            seq := if s.autoAck then s.seq + 1 else s.seq
            txLen := if s.autoAck then 12 else s.txLen
            txf := t.txf
            ackTxFail := if s.autoAck then !s.txOk else s.ackTxFail
            out := s.out ++
              if s.autoAck then
                if s.txOk then [.deliver src dst q p, .transmit f]
                else [.deliver src dst q p, .transmit f, .ackTxFail]
              else [.deliver src dst q p] } ∧
      t.rxPayload = .ok p ∧
      (s.autoAck = true → t.txFrame = .ok f) ∧ (s.autoAck = false → t.txf = s.txf)


/-- A stray ACK (R150): an ACK frame in `Idle` completes; the decode unit records it with `RXACK = 1`; no other register
changes, `TXF` stays and nothing is emitted (for the rest of `RXP`: `BuffersHoldExactlyTheLastWrite`). -/
def Obligations.StrayAckIsDropped : Prop :=
  ∀ (src dst : DeviceId) (q acked : Byte) (s : State), s.arq = .idle →
    ∃ t, exec (.frameAck src dst q acked) s = .next t ∧
      t = { s with
            rxSrc := src, rxDst := dst, rxSeq := q, rxLen := 2, rxp := t.rxp
            rxValid := true, rxErr := .success, rxAck := true } ∧
      t.rxPayload = .ok [0x06, acked]

/-- A buffer that is no frame (R116, R149, and R130 during a wait): only `RXSTAT` records it, with code 3 for a wrong
checksum in a right layout and code 2 otherwise; nothing is emitted. -/
def Obligations.RejectedBuffersAreOnlyRecorded : Prop :=
  ∀ (s : State) (b : Bytes) (e : DecodeError) (ok : Bool) (rest : List Input),
    s.arq = .idle ∨ s.arq = .awaitingAck → s.inbox = ⟨.rxBytes b, ok⟩ :: rest → decodeFrame b = .error e →
    step s = .next
      { s with
        inbox := rest, txOk := ok, out := [], rxValid := false, rxAck := false
        rxErr := if e = .checksumMismatch then .checksumMismatch else .malformedFrame }

/-! ## The whole machine (00_scope.md R7, 10_state.md R33, 20_memory.md R55, 60_exceptions.md, 70_reset_and_hazards.md) -/

/-- When the presentation at the head of the inbox decodes to an instruction, the step is that instruction's `exec`, on
the state with the input taken: gone from the inbox, its draw in place, no outputs yet. -/
def Obligations.StepRunsTheDecodedInstruction : Prop :=
  ∀ (s : State) (w : Wire) (ok : Bool) (rest : List Input) (i : Instr),
    s.inbox = ⟨Wire.event w, ok⟩ :: rest → decode w = .ok i →
    step s = exec i { s with inbox := rest, txOk := ok, out := [] }

/-- A reserved opcode in `Idle` (R77): `Rsp(7, 0, empty)` and no state change, whatever data comes with it (log entry
19). -/
def Obligations.ReservedOpcodesAreRefused : Prop :=
  ∀ (s : State) (word : CommandWord) (data : Bytes) (ok : Bool) (rest : List Input),
    s.arq = .idle → s.inbox = ⟨.cmd word data, ok⟩ :: rest → word.toNat / 2 ^ 40 = 0 ∨ 7 ≤ word.toNat / 2 ^ 40 →
    step s = .next { s with inbox := rest, txOk := ok, out := [.rsp .refused 0 []] }

/-- THE MODEL'S CHOICE (log entry 6): in `Idle`, a Format B command that does not bring exactly `n` data bytes, which R72
excludes, is refused by the model. -/
def Obligations.WrongDataLengthIsAModelRefusal : Prop :=
  ∀ (s : State) (word : CommandWord) (data : Bytes) (ok : Bool) (rest : List Input),
    s.arq = .idle → s.inbox = ⟨.cmd word data, ok⟩ :: rest →
    1 ≤ word.toNat / 2 ^ 40 → word.toNat / 2 ^ 40 ≤ 4 → data.length ≠ word.toNat / 2 ^ 8 % 2 ^ 16 →
    step s = .refused .commandDataLength

/-- `Reset`, in any state (R191, R192, R34): every register takes its reset value and nothing is emitted. -/
def Obligations.ResetEventRestoresEveryRegister : Prop :=
  ∀ (s : State) (ok : Bool) (rest : List Input), s.inbox = ⟨.reset, ok⟩ :: rest →
    ∃ t, step s = .next t ∧
      t.devid = s.params.deviceId ∧ t.seq = 0 ∧ t.maxRetry = 3 ∧
      t.timeout = BitVec.ofNat 32 (2 * s.params.ticksPerUnit) ∧
      t.ctrlWord = 1 ∧ t.arq = .idle ∧ t.statusWord = 0 ∧ t.resultWord = 0 ∧ t.attempts = 0 ∧ t.waitRem = 0 ∧
      t.outSeq = 0 ∧ t.txLen = 0 ∧ t.rxstatWord = 0 ∧ t.rxSrc = 0 ∧ t.rxDst = 0 ∧ t.rxSeq = 0 ∧ t.rxLen = 0 ∧
      t.out = [] ∧ t.params = s.params ∧ t.inbox = rest

/-- The reset state (R34): the sixteen registers as they read, and `TIMEOUT` positive whatever the parameter is (R17). -/
def Obligations.ResetStateRegisters : Prop :=
  let s := State.reset
  s.arq = .idle ∧ s.devid = s.params.deviceId ∧ s.params.Legal ∧
  s.timeout.toNat = 2 * s.params.ticksPerUnit ∧ 1 ≤ s.timeout.toNat ∧
  s.readReg .seq = 0 ∧ s.readReg .maxRetry = 3 ∧ s.readReg .ctrl = 1 ∧ s.readReg .status = 0 ∧
  s.readReg .result = 0 ∧ s.readReg .attempts = 0 ∧ s.readReg .waitRem = 0 ∧ s.readReg .outSeq = 0 ∧
  s.readReg .txLen = 0 ∧ s.readReg .rxStat = 0 ∧ s.readReg .rxSrc = 0 ∧ s.readReg .rxDst = 0 ∧
  s.readReg .rxSeq = 0 ∧ s.readReg .rxLen = 0

/-- The invariant of R33 holds at reset. -/
def Obligations.ResetMeetsTheInvariant : Prop := State.reset.Inv

/-- Every step keeps the invariant of R33, from every state that meets it and for every input. -/
def Obligations.StepKeepsTheInvariant : Prop :=
  ∀ s t : State, s.Inv → step s = .next t → t.Inv

/-- The step function is total (R7, R177): from a state that meets the invariant, any event a port can carry leads to a
next state; the model never faults. -/
def Obligations.StepCompletesUnderTheInvariant : Prop :=
  ∀ s : State, s.Inv → (∀ i ∈ s.inbox, i.event.Presentable) → ∃ t, step s = .next t

/-- What is transmitted (R57): a step emits at most one `Transmit`, and its bytes are `TXF[0..TXLEN]` after the step, 10
to 265 bytes that `decode` accepts. -/
def Obligations.TransmitsAreTheFrameInTheBuffer : Prop :=
  ∀ s t : State, s.Inv → step s = .next t →
    (t.out.filter Output.isTransmit).length ≤ 1 ∧
    ∀ b, .transmit b ∈ t.out →
      t.txFrame = .ok b ∧ 10 ≤ b.length ∧ b.length ≤ 265 ∧ ∃ fr, decodeFrame b = .ok fr

/-- When LLC transmits (R145): only when it takes a SEND that starts, when it acknowledges a data frame in `Idle`, and
when a tick ends a wait with retries left. -/
def Obligations.TransmitOnlyForSendRetryOrAck : Prop :=
  ∀ (s t : State) (e : Event) (ok : Bool) (rest : List Input) (b : Bytes),
    s.inbox = ⟨e, ok⟩ :: rest → step s = .next t → .transmit b ∈ t.out →
    (s.arq = .idle ∧ ∃ a low data, data.length ≤ 255 ∧ e = Wire.event (encode (.send a low data))) ∨
    (s.arq = .idle ∧ s.autoAck = true ∧
      ∃ src dst q p, Instr.wf (.frame src dst q p) = true ∧ e = Wire.event (encode (.frame src dst q p))) ∨
    (s.arq = .awaitingAck ∧ e = .tick ∧ s.waitRem = 1 ∧ s.attempts.toNat < s.maxRetry.toNat)

/-- Who advances `SEQ` (R95): it goes up by one, modulo 256, exactly on a step in `Idle` that encodes (ENCODE or SEND of at
most 255 bytes, or a data frame that is acknowledged); a `Reset` puts it to 0; on every other step it stays. -/
def Obligations.SequenceAdvancesExactlyOnEncode : Prop :=
  ∀ (s t : State) (e : Event) (ok : Bool) (rest : List Input),
    s.inbox = ⟨e, ok⟩ :: rest → step s = .next t →
    (e = .reset → t.seq = 0) ∧
    (∀ w i, e = Wire.event w → decode w = .ok i → s.arq = .idle →
      t.seq = match i with
        | .encode _ _ data | .send _ _ data => if data.length ≤ 255 then s.seq + 1 else s.seq
        | .frame _ _ _ _ => if s.autoAck then s.seq + 1 else s.seq
        | .crc16 _ _ _ | .decode _ _ _ | .rdreg _ _ | .wrreg _ _ | .frameAck _ _ _ _ => s.seq) ∧
    (∀ w x, e = Wire.event w → decode w = .error x → t.seq = s.seq) ∧
    (e = .tick ∨ e = .cancel → t.seq = s.seq) ∧
    (s.arq = .awaitingAck → e ≠ .reset → t.seq = s.seq)

/-- ENCODE commands in a row: whatever their reserved bytes and whatever the draws, they all complete, carry the sequence
numbers after the one in `SEQ`, modulo 256, and leave `SEQ` as much higher. (R96 speaks of every encode, whoever runs it:
`EveryEncodeTakesTheNextNumber`.) -/
def Obligations.SuccessiveEncodesCountModulo256 : Prop :=
  ∀ (cmds : List (DeviceId × BitVec 8 × Bytes × Bool)) (s : State) (rest : List Input),
    s.arq = .idle → (∀ c ∈ cmds, c.2.2.1.length ≤ 255) →
    s.inbox = cmds.map (fun c => ⟨Wire.event (encode (.encode c.1 c.2.1 c.2.2.1)), c.2.2.2⟩) ++ rest →
    ∃ t outs, runOutputs cmds.length s = some (t, outs) ∧ outs.length = cmds.length ∧
      t.seq.toNat = (s.seq.toNat + cmds.length) % 256 ∧ t.arq = .idle ∧
      ∀ k, k < cmds.length → ∃ f, outs[k]? = some (.rsp .success (BitVec.ofNat 32 f.length) f) ∧
        (byteAt f 5).toNat = (s.seq.toNat + k + 1) % 256

/-- Configuration and identity (R14, R19): only a WRREG taken in `Idle` changes `MAXRETRY`, `TIMEOUT` or `CTRL`, and
nothing changes `DEVID`, but for `Reset`; the parameters never change. -/
def Obligations.OnlyWrregChangesTheConfiguration : Prop :=
  ∀ (s t : State) (e : Event) (ok : Bool) (rest : List Input),
    s.inbox = ⟨e, ok⟩ :: rest → step s = .next t →
    t.params = s.params ∧
    (e ≠ .reset →
      t.devid = s.devid ∧
      (t.maxRetry ≠ s.maxRetry ∨ t.timeout ≠ s.timeout ∨ t.autoAck ≠ s.autoAck →
        s.arq = .idle ∧ ∃ word data, e = .cmd word data ∧ word.toNat / 2 ^ 40 = 6))

/-- The buffers' writers (R41, R113): a step other than a `Reset` that leaves `SEQ` as it was, so encodes nothing, leaves
`TXF` and `TXLEN` as they were; and only a received buffer or a DECODE taken in `Idle` changes `RXP`, `RXLEN` or another
register of the decode unit. -/
def Obligations.BuffersHaveOneWriterEach : Prop :=
  ∀ (s t : State) (e : Event) (ok : Bool) (rest : List Input),
    s.inbox = ⟨e, ok⟩ :: rest → step s = .next t → e ≠ .reset →
    (t.seq = s.seq → t.txf = s.txf ∧ t.txLen = s.txLen) ∧
    ((∀ b, e ≠ .rxBytes b) → (∀ w data, e = .cmd w data → CommandWord.op w ≠ 0x03) →
      t.rxp = s.rxp ∧ t.rxLen = s.rxLen ∧ t.rxSrc = s.rxSrc ∧ t.rxDst = s.rxDst ∧ t.rxSeq = s.rxSeq ∧
      t.rxstatWord = s.rxstatWord)

/-- What each instruction leaves in the two buffers, byte by byte. In `Idle`, ENCODE and SEND of at most 255 bytes leave
exactly their frame in `TXF`, an acknowledged FRAME exactly its ACK frame, and DECODE of a frame exactly the payload in
`RXP`; FRAME and FRAME.ACK leave exactly their payload in `RXP` in `Idle` and in `AwaitingAck`. In every other case the
buffer is as it was. The spec calls the bytes above the live length unspecified (R24, R27): that they have no value is THE
MODEL'S CHOICE, log entry 9, the rendering U16 recommends; that a buffer received in a transient state, which no event
meets, has no effect is log entry 7. -/
def Obligations.BuffersHoldExactlyTheLastWrite : Prop :=
  ∀ (i : Instr) (s : State), i.wf = true →
    ∃ t, exec i s = .next t ∧
      match i with
      | .crc16 _ _ _ | .rdreg _ _ | .wrreg _ _ => t.txf = s.txf ∧ t.rxp = s.rxp
      | .encode a _ data | .send a _ data =>
        t.rxp = s.rxp ∧
        (s.arq = .idle ∧ data.length ≤ 255 → ∀ k, Memory.read t.txf k =
          (buildFrame { src := s.devid, dst := a, seq := s.seq + 1, payload := data })[k]?) ∧
        (¬ (s.arq = .idle ∧ data.length ≤ 255) → t.txf = s.txf)
      | .decode _ _ data =>
        t.txf = s.txf ∧
        (∀ fr, s.arq = .idle → decodeFrame data = .ok fr → ∀ k, Memory.read t.rxp k = fr.payload[k]?) ∧
        (∀ e, decodeFrame data = .error e → t.rxp = s.rxp) ∧
        (s.arq ≠ .idle → t.rxp = s.rxp)
      | .frame src _ seq p =>
        (s.arq = .idle ∧ s.autoAck = true → ∀ k, Memory.read t.txf k =
          (buildFrame { src := s.devid, dst := src, seq := s.seq + 1, payload := [0x06, seq] })[k]?) ∧
        (¬ (s.arq = .idle ∧ s.autoAck = true) → t.txf = s.txf) ∧
        (s.arq = .idle ∨ s.arq = .awaitingAck → ∀ k, Memory.read t.rxp k = p[k]?) ∧
        (¬ (s.arq = .idle ∨ s.arq = .awaitingAck) → t.rxp = s.rxp)
      | .frameAck _ _ _ acked =>
        t.txf = s.txf ∧
        (s.arq = .idle ∨ s.arq = .awaitingAck → ∀ k, Memory.read t.rxp k = [0x06, acked][k]?) ∧
        (¬ (s.arq = .idle ∨ s.arq = .awaitingAck) → t.rxp = s.rxp)

/-- Responses (R50, R56, R192): a command taken in `Idle` gets exactly one `Rsp` in the same step, or is a SEND that now
waits and gets none yet; during a wait a step emits its one `Rsp` exactly when it ends the wait; a `Reset` and the other
events in `Idle` emit none. -/
def Obligations.EachCommandIsAnsweredOnce : Prop :=
  ∀ (s t : State) (e : Event) (ok : Bool) (rest : List Input),
    s.inbox = ⟨e, ok⟩ :: rest → step s = .next t →
    let n := (t.out.filter Output.isRsp).length
    (e = .reset → n = 0) ∧
    (e ≠ .reset → s.arq = .awaitingAck →
      (n = 1 ∧ t.arq = .idle) ∨ (n = 0 ∧ t.arq = .awaitingAck)) ∧
    (s.arq = .idle → ∀ word data, e = .cmd word data →
      (n = 1 ∧ t.arq = .idle) ∨ (n = 0 ∧ t.arq = .awaitingAck ∧ word.toNat / 2 ^ 40 = 4)) ∧
    (s.arq = .idle → (∀ word data, e ≠ .cmd word data) → n = 0 ∧ t.arq = .idle)

/-- What is only a record (R30, R31). Take two states at rest that are alike: equal in `STATE`, the identity, `SEQ`, the
configuration, the parameters and the inputs, and during a wait in the pending attempt's `OUTSEQ`, `ATTEMPTS`, `WAITREM`
and frame; every other register and both buffers may differ, in `Idle` also those of the attempt that resolved. One step
on any event but an RDREG in `Idle` gives the same outputs and again alike states; so a SEND loads everything its attempt
reads from what is alike. -/
def Obligations.ResolvedAttemptLeavesNoTrace : Prop :=
  ∀ s x t : State, s.arq = .idle ∨ s.arq = .awaitingAck → s.Alike x →
    (s.arq = .idle → ∀ word data ok rest, s.inbox = ⟨.cmd word data, ok⟩ :: rest → CommandWord.op word ≠ 0x05) →
    step s = .next t → ∃ u, step x = .next u ∧ u.out = t.out ∧ t.Alike u

/-- The `k`-th encode (R96), whoever runs it (R95): an ENCODE command, the start of a SEND or the ACK of a data frame. A
step that encodes hands out one frame. Over any run without a `Reset`, the `k`-th frame so encoded carries the `k`-th number
after the one in `SEQ`, modulo 256, the 257th what the 1st did, and `SEQ` ends as much higher as there were encodes; right
after a `Reset` the `k`-th frame carries `k mod 256`. -/
def Obligations.EveryEncodeTakesTheNextNumber : Prop :=
  (∀ s t : State, step s = .next t → s.encodesNext = true → ∃ f, framesOf t.out = [f]) ∧
  (∀ (n : Nat) (s t : State) (fs : List Bytes),
    runEncodes n s = some (t, fs) → (∀ i ∈ s.inbox.take n, i.event ≠ .reset) →
    t.seq.toNat = (s.seq.toNat + fs.length) % 256 ∧
    (∀ k f, fs[k]? = some f → (byteAt f 5).toNat = (s.seq.toNat + (k + 1)) % 256) ∧
    ∀ k f g, fs[k]? = some f → fs[k + 256]? = some g → byteAt g 5 = byteAt f 5) ∧
  ∀ (n : Nat) (s₀ s t : State) (fs : List Bytes) (ok : Bool) (rest : List Input),
    s₀.inbox = ⟨.reset, ok⟩ :: rest → step s₀ = .next s →
    runEncodes n s = some (t, fs) → (∀ i ∈ rest.take n, i.event ≠ .reset) →
    ∀ k f, fs[k]? = some f → (byteAt f 5).toNat = (k + 1) % 256
end

