-- ==== Sys2Proof/Laws/Crc.lean ====
section
/-! SUPPORT. Laws of the checksum register: composition over append, linearity, and that no step loses information. -/

namespace Sys2Proof

@[simp] theorem crcFrom_nil (c : Crc) : crcFrom c [] = c := rfl

@[simp] theorem crcFrom_cons (c : Crc) (b : Byte) (bs : Bytes) : crcFrom c (b :: bs) = crcFrom (crcByte c b) bs := rfl

/-- The register after `b ++ b'` is the one after `b'`, started where `b` ended. -/
theorem crcFrom_append (c : Crc) (b b' : Bytes) : crcFrom c (b ++ b') = crcFrom (crcFrom c b) b' := by
  simp [crcFrom, List.foldl_append]

/-- Adding the same value on both sides of an exclusive-or changes nothing. -/
theorem xor_xor_cancel {w : Nat} (a b p : BitVec w) : (a ^^^ p) ^^^ (b ^^^ p) = a ^^^ b := by
  apply BitVec.eq_of_getLsbD_eq
  intro i _
  simp only [BitVec.getLsbD_xor]
  cases a.getLsbD i <;> cases b.getLsbD i <;> cases p.getLsbD i <;> rfl

/-- One shift is linear over exclusive-or. -/
theorem crcShift_xor (c d : Crc) : crcShift (c ^^^ d) = crcShift c ^^^ crcShift d := by
  unfold crcShift
  rw [BitVec.getLsbD_xor, BitVec.shiftLeft_xor_distrib]
  cases c.getLsbD 15 <;> cases d.getLsbD 15
  · rfl
  · exact BitVec.xor_assoc ..
  · show (c <<< 1 ^^^ d <<< 1) ^^^ crcPoly = (c <<< 1 ^^^ crcPoly) ^^^ d <<< 1
    rw [BitVec.xor_assoc, BitVec.xor_comm (d <<< 1), BitVec.xor_assoc]
  · exact (xor_xor_cancel (c <<< 1) (d <<< 1) crcPoly).symm

/-- Bit 0 of the polynomial is 1, so the bit shifted out can be read off the result: a shift loses nothing. -/
theorem crcShift_eq_zero {c : Crc} (h : crcShift c = 0) : c = 0 := by
  unfold crcShift at h
  cases hc : c.getLsbD 15 with
  | true =>
    rw [if_pos hc] at h
    have h0 := congrArg (fun v : Crc => v.getLsbD 0) h
    simp [crcPoly] at h0
  | false =>
    rw [if_neg (by rw [hc]; decide)] at h
    apply BitVec.eq_of_getLsbD_eq
    intro i hi
    by_cases h15 : i = 15
    · rw [h15, hc]; rfl
    · have h1 := congrArg (fun v : Crc => v.getLsbD (i + 1)) h
      simp only [BitVec.getLsbD_shiftLeft] at h1
      simpa [show i + 1 < 16 by omega] using h1

/-- Eight or any number of shifts are linear. -/
theorem crcShifts_xor (n : Nat) (c d : Crc) : crcShifts n (c ^^^ d) = crcShifts n c ^^^ crcShifts n d := by
  induction n generalizing c d with
  | zero => rfl
  | succ n ih => rw [crcShifts, crcShift_xor, ih]; rfl

/-- No number of shifts loses information. -/
theorem crcShifts_eq_zero {n : Nat} {c : Crc} (h : crcShifts n c = 0) : c = 0 := by
  induction n generalizing c with
  | zero => exact h
  | succ n ih => exact crcShift_eq_zero (ih h)

/-- The difference of two registers after one byte, from the differences before it. -/
theorem crcByte_xor (c d : Crc) (x y : Byte) : crcByte c x ^^^ crcByte d y = crcByte (c ^^^ d) (x ^^^ y) := by
  unfold crcByte
  rw [← crcShifts_xor]
  congr 1
  have hb : (x ^^^ y).zeroExtend 16 <<< 8 = (x.zeroExtend 16 <<< 8) ^^^ (y.zeroExtend 16 <<< 8) := by
    simp [BitVec.zeroExtend, BitVec.setWidth_xor, BitVec.shiftLeft_xor_distrib]
  rw [hb]
  generalize x.zeroExtend 16 <<< 8 = u
  generalize y.zeroExtend 16 <<< 8 = v
  apply BitVec.eq_of_getLsbD_eq
  intro i _
  simp only [BitVec.getLsbD_xor]
  cases c.getLsbD i <;> cases d.getLsbD i <;> cases u.getLsbD i <;> cases v.getLsbD i <;> rfl

/-- A nonzero difference of registers survives equal bytes. -/
theorem crcFrom_injective {c d : Crc} (bs : Bytes) (h : crcFrom c bs = crcFrom d bs) : c = d := by
  induction bs generalizing c d with
  | nil => exact h
  | cons b bs ih =>
    have hb := ih (by simpa using h)
    have : crcByte (c ^^^ d) 0 = 0 := by
      have := crcByte_xor c d b b
      rw [hb] at this
      simpa using this.symm
    have := crcShifts_eq_zero this
    simp only [BitVec.ofNat_eq_ofNat] at this
    have h0 : c ^^^ d = 0 := by simpa using this
    exact BitVec.xor_eq_zero_iff.mp h0

/-- Different bytes from equal registers give different registers. -/
theorem crcByte_injective {c : Crc} {x y : Byte} (h : crcByte c x = crcByte c y) : x = y := by
  have h1 := crcByte_xor c c x y
  rw [h] at h1
  have h2 : crcByte 0 (x ^^^ y) = 0 := by simpa using h1.symm
  have h3 := crcShifts_eq_zero h2
  have h4 : x ^^^ y = 0 := by
    apply BitVec.eq_of_getLsbD_eq
    intro i hi
    have := congrArg (fun v => BitVec.getLsbD v (i + 8)) h3
    simpa [BitVec.getLsbD_shiftLeft, BitVec.getLsbD_setWidth, hi, show i + 8 < 16 by omega] using this
  exact BitVec.xor_eq_zero_iff.mp h4

/-- Two byte strings that differ in one byte have different checksums. -/
theorem crc16_ne_of_one_byte (b b' : Bytes) {x y : Byte} (h : x ≠ y) :
    crc16 (b ++ x :: b') ≠ crc16 (b ++ y :: b') := by
  intro he
  simp only [crc16, crcFrom_append, crcFrom_cons] at he
  exact h (crcByte_injective (crcFrom_injective b' he))

end Sys2Proof
end

