-- ==== Sys2Proof/Laws/Decode.lean ====
section
/-! SUPPORT. The fields of a command word as it is built, 16-bit values as bytes, and where each byte of a built frame
sits. -/

namespace Sys2Proof

/-! ## 16-bit values and bytes -/

@[simp] theorem be16_hiByte_loByte (v : BitVec 16) : be16 (hiByte v) (loByte v) = v := by
  apply BitVec.eq_of_getLsbD_eq
  intro i hi
  simp only [be16, hiByte, loByte, BitVec.getLsbD_append, BitVec.getLsbD_extractLsb']
  split
  · simp [*]
  · simp only [show i - 8 < 8 by omega, decide_true, Bool.true_and]; congr 1; omega

@[simp] theorem hiByte_be16 (h l : Byte) : hiByte (be16 h l) = h := by
  apply BitVec.eq_of_getLsbD_eq
  intro i hi
  simp only [be16, hiByte, BitVec.getLsbD_extractLsb', BitVec.getLsbD_append]
  simp [hi]

@[simp] theorem loByte_be16 (h l : Byte) : loByte (be16 h l) = l := by
  apply BitVec.eq_of_getLsbD_eq
  intro i hi
  simp only [be16, loByte, BitVec.getLsbD_extractLsb', BitVec.getLsbD_append]
  simp [hi]

theorem hiByte_toNat (v : BitVec 16) : (hiByte v).toNat = v.toNat / 256 := by
  simp [hiByte, BitVec.extractLsb'_toNat, Nat.shiftRight_eq_div_pow]
  omega

theorem loByte_toNat (v : BitVec 16) : (loByte v).toNat = v.toNat % 256 := by
  simp [loByte, BitVec.extractLsb'_toNat]

theorem be16_toNat (h l : Byte) : (be16 h l).toNat = h.toNat * 256 + l.toNat := by
  have h1 := hiByte_toNat (be16 h l)
  have h2 := loByte_toNat (be16 h l)
  simp only [hiByte_be16, loByte_be16] at h1 h2
  omega

/-! ## The fields of a command word -/

section fields
variable (op : BitVec 8) (a n : BitVec 16) (low r : BitVec 8) (v : Value)

@[simp] theorem op_formatB : CommandWord.op (op ++ a ++ n ++ low) = op := by
  apply BitVec.eq_of_getLsbD_eq
  intro i hi
  simp only [CommandWord.op, BitVec.getLsbD_extractLsb', BitVec.getLsbD_append]
  rw [if_neg (by omega), if_neg (by omega), if_neg (by omega)]
  simp only [hi, decide_true, Bool.true_and]; congr 1; omega

@[simp] theorem a_formatB : CommandWord.a (op ++ a ++ n ++ low) = a := by
  apply BitVec.eq_of_getLsbD_eq
  intro i hi
  simp only [CommandWord.a, BitVec.getLsbD_extractLsb', BitVec.getLsbD_append]
  rw [if_neg (by omega), if_neg (by omega), if_pos (by omega)]
  simp only [hi, decide_true, Bool.true_and]; congr 1; omega

@[simp] theorem n_formatB : CommandWord.n (op ++ a ++ n ++ low) = n := by
  apply BitVec.eq_of_getLsbD_eq
  intro i hi
  simp only [CommandWord.n, BitVec.getLsbD_extractLsb', BitVec.getLsbD_append]
  rw [if_neg (by omega), if_pos (by omega)]
  simp only [hi, decide_true, Bool.true_and]; congr 1; omega

@[simp] theorem reserved_formatB : CommandWord.reserved (op ++ a ++ n ++ low) = low := by
  apply BitVec.eq_of_getLsbD_eq
  intro i hi
  simp only [CommandWord.reserved, BitVec.getLsbD_extractLsb', BitVec.getLsbD_append]
  simp [hi]

@[simp] theorem op_formatR : CommandWord.op (op ++ r ++ v) = op := by
  apply BitVec.eq_of_getLsbD_eq
  intro i hi
  simp only [CommandWord.op, BitVec.getLsbD_extractLsb', BitVec.getLsbD_append]
  rw [if_neg (by omega), if_neg (by omega)]
  simp only [hi, decide_true, Bool.true_and]; congr 1; omega

@[simp] theorem r_formatR : CommandWord.r (op ++ r ++ v) = r := by
  apply BitVec.eq_of_getLsbD_eq
  intro i hi
  simp only [CommandWord.r, BitVec.getLsbD_extractLsb', BitVec.getLsbD_append]
  rw [if_neg (by omega), if_pos (by omega)]
  simp only [hi, decide_true, Bool.true_and]; congr 1; omega

@[simp] theorem v_formatR : CommandWord.v (op ++ r ++ v) = v := by
  apply BitVec.eq_of_getLsbD_eq
  intro i hi
  simp only [CommandWord.v, BitVec.getLsbD_extractLsb', BitVec.getLsbD_append]
  simp [hi]

end fields

/-- A Format B word is its four fields. -/
theorem formatB_fields (w : CommandWord) :
    (CommandWord.op w ++ CommandWord.a w ++ CommandWord.n w ++ CommandWord.reserved w : CommandWord) = w := by
  apply BitVec.eq_of_getLsbD_eq
  intro i hi
  simp only [CommandWord.op, CommandWord.a, CommandWord.n, CommandWord.reserved, BitVec.getLsbD_append,
    BitVec.getLsbD_extractLsb']
  split
  · simp [*]
  · split
    · simp only [show i - 8 < 16 by omega, decide_true, Bool.true_and]; congr 1; omega
    · split
      · simp only [show i - 8 - 16 < 16 by omega, decide_true, Bool.true_and]; congr 1; omega
      · simp only [show i - 8 - 16 - 16 < 8 by omega, decide_true, Bool.true_and]; congr 1; omega

/-- A Format B presentation is the encoding of its fields (R72). -/
theorem formatB_word {w : CommandWord} {d : Bytes} {op : BitVec 8} (ho : CommandWord.op w = op)
    (hd : d.length = (CommandWord.n w).toNat) :
    formatB op (CommandWord.a w) (CommandWord.reserved w) d = .command w d := by
  unfold formatB
  rw [← ho, hd, BitVec.ofNat_toNat, BitVec.setWidth_eq, formatB_fields]

/-- A Format R word is its three fields. -/
theorem formatR_fields (w : CommandWord) :
    (CommandWord.op w ++ CommandWord.r w ++ CommandWord.v w : CommandWord) = w := by
  apply BitVec.eq_of_getLsbD_eq
  intro i hi
  simp only [CommandWord.op, CommandWord.r, CommandWord.v, BitVec.getLsbD_append, BitVec.getLsbD_extractLsb']
  split
  · simp [*]
  · split
    · simp only [show i - 32 < 8 by omega, decide_true, Bool.true_and]; congr 1; omega
    · simp only [show i - 32 - 8 < 8 by omega, decide_true, Bool.true_and]; congr 1; omega

theorem op_toNat (w : CommandWord) : (CommandWord.op w).toNat = w.toNat / 2 ^ 40 := by
  simp only [CommandWord.op, BitVec.extractLsb'_toNat, Nat.shiftRight_eq_div_pow]
  omega

theorem a_eq (w : CommandWord) : CommandWord.a w = BitVec.ofNat 16 (w.toNat / 2 ^ 24) := by
  simp [CommandWord.a, BitVec.extractLsb', Nat.shiftRight_eq_div_pow]

theorem n_toNat (w : CommandWord) : (CommandWord.n w).toNat = w.toNat / 2 ^ 8 % 2 ^ 16 := by
  simp [CommandWord.n, BitVec.extractLsb'_toNat, Nat.shiftRight_eq_div_pow]

theorem reserved_eq (w : CommandWord) : CommandWord.reserved w = BitVec.ofNat 8 w.toNat := by
  simp [CommandWord.reserved, BitVec.extractLsb']

theorem r_eq (w : CommandWord) : CommandWord.r w = BitVec.ofNat 8 (w.toNat / 2 ^ 32) := by
  simp [CommandWord.r, BitVec.extractLsb', Nat.shiftRight_eq_div_pow]

theorem v_eq (w : CommandWord) : CommandWord.v w = BitVec.ofNat 32 w.toNat := by
  simp [CommandWord.v, BitVec.extractLsb']

/-! ## Well-formed frames and ACK frames (R66, R70) -/

/-- A FRAME instruction is well-formed when its payload fits the length byte and has not ACK form. -/
theorem wf_frame_iff {src dst : DeviceId} {seq : Byte} {p : Bytes} :
    Instr.wf (.frame src dst seq p) = true ↔ p.length ≤ 255 ∧ ¬ Instr.ackForm p := by
  show (decide _ && decide _) = true ↔ _
  rw [Bool.and_eq_true, decide_eq_true_iff, decide_eq_true_iff]
  rfl

theorem Frame.isAck_iff {fr : Frame} : fr.isAck = true ↔ Instr.ackForm fr.payload := decide_eq_true_iff

/-- The frame of a FRAME.ACK instruction is an ACK frame, and names what the instruction names. -/
@[simp] theorem Frame.isAck_ack (src dst : DeviceId) (seq acked : Byte) :
    Frame.isAck ⟨src, dst, seq, [Config.ackMark, acked]⟩ = true := by
  rw [Frame.isAck_iff]
  exact ⟨rfl, rfl⟩

@[simp] theorem Frame.ackedSeq_ack (src dst : DeviceId) (seq acked : Byte) :
    Frame.ackedSeq ⟨src, dst, seq, [Config.ackMark, acked]⟩ = acked := rfl

/-- The frame of a well-formed FRAME instruction is a data frame. -/
theorem Frame.isAck_of_wf {src dst : DeviceId} {seq : Byte} {p : Bytes}
    (h : Instr.wf (.frame src dst seq p) = true) : Frame.isAck ⟨src, dst, seq, p⟩ = false := by
  rw [Bool.eq_false_iff, ne_eq, Frame.isAck_iff]
  exact (wf_frame_iff.mp h).2

/-! ## The bytes of a built frame (R64) -/

@[simp] theorem frameBody_length (fr : Frame) : (frameBody fr).length = 6 + fr.payload.length := by
  simp [frameBody]; omega

@[simp] theorem buildFrame_length (fr : Frame) : (buildFrame fr).length = 10 + fr.payload.length := by
  simp [buildFrame]; omega

section bytes
variable (fr : Frame)

@[simp] theorem byteAt_buildFrame_header : byteAt (buildFrame fr) 0 = Config.hdr := rfl
@[simp] theorem byteAt_buildFrame_src_hi : byteAt (buildFrame fr) 1 = hiByte fr.src := rfl
@[simp] theorem byteAt_buildFrame_src_lo : byteAt (buildFrame fr) 2 = loByte fr.src := rfl
@[simp] theorem byteAt_buildFrame_dst_hi : byteAt (buildFrame fr) 3 = hiByte fr.dst := rfl
@[simp] theorem byteAt_buildFrame_dst_lo : byteAt (buildFrame fr) 4 = loByte fr.dst := rfl
@[simp] theorem byteAt_buildFrame_seq : byteAt (buildFrame fr) 5 = fr.seq := rfl
@[simp] theorem byteAt_buildFrame_len : byteAt (buildFrame fr) 6 = BitVec.ofNat 8 fr.payload.length := rfl

/-- A built frame, with the payload and what follows it in sight. -/
theorem buildFrame_eq :
    buildFrame fr = [Config.hdr, hiByte fr.src, loByte fr.src, hiByte fr.dst, loByte fr.dst, fr.seq,
      BitVec.ofNat 8 fr.payload.length] ++ (fr.payload ++
      [hiByte (crc16 (frameBody fr)), loByte (crc16 (frameBody fr)), Config.ftr]) := by
  simp [buildFrame, frameBody]

theorem byteAt_buildFrame_payload {i : Nat} (h : i < fr.payload.length) :
    byteAt (buildFrame fr) (7 + i) = byteAt fr.payload i := by
  rw [buildFrame_eq, byteAt, List.getD_append_right _ _ _ _ (by simp), List.getD_append _ _ _ _ (by simpa using h)]
  simp [byteAt]

theorem byteAt_buildFrame_after (i : Nat) :
    byteAt (buildFrame fr) (7 + fr.payload.length + i) =
      byteAt [hiByte (crc16 (frameBody fr)), loByte (crc16 (frameBody fr)), Config.ftr] i := by
  rw [buildFrame_eq, byteAt, List.getD_append_right _ _ _ _ (by simp; omega),
    List.getD_append_right _ _ _ _ (by simp; omega), byteAt]
  congr 1
  simp; omega

@[simp] theorem byteAt_buildFrame_crc_hi :
    byteAt (buildFrame fr) (7 + fr.payload.length) = hiByte (crc16 (frameBody fr)) :=
  byteAt_buildFrame_after fr 0

@[simp] theorem byteAt_buildFrame_crc_lo :
    byteAt (buildFrame fr) (8 + fr.payload.length) = loByte (crc16 (frameBody fr)) := by
  have := byteAt_buildFrame_after fr 1
  rwa [show 7 + fr.payload.length + 1 = 8 + fr.payload.length by omega] at this

@[simp] theorem byteAt_buildFrame_footer : byteAt (buildFrame fr) (9 + fr.payload.length) = Config.ftr := by
  have := byteAt_buildFrame_after fr 2
  rwa [show 7 + fr.payload.length + 2 = 9 + fr.payload.length by omega] at this

/-- The covered bytes of a built frame (R67). -/
@[simp] theorem slice_buildFrame_body : slice (buildFrame fr) 1 (7 + fr.payload.length) = frameBody fr := by
  have : buildFrame fr = [Config.hdr] ++ (frameBody fr ++
      [hiByte (crc16 (frameBody fr)), loByte (crc16 (frameBody fr)), Config.ftr]) := by simp [buildFrame]
  rw [this, slice, List.drop_append_of_le_length (by simp)]
  rw [show 7 + fr.payload.length - 1 = (frameBody fr).length by rw [frameBody_length]; omega]
  simp

/-- The payload bytes of a built frame. -/
@[simp] theorem slice_buildFrame_payload : slice (buildFrame fr) 7 (7 + fr.payload.length) = fr.payload := by
  rw [buildFrame_eq, slice, List.drop_append_of_le_length (by simp)]
  simp

end bytes

end Sys2Proof
end

