-- ==== Sys2Proof/Laws/Memory.lean ====
section
/-! SUPPORT. The laws of a buffer: what a read sees after a write, and that every operation keeps the canonical form. -/

namespace Sys2Proof.Machine

/-- A read at the index just written sees the byte written. -/
@[simp] theorem Memory.read_write_self (m : Memory) (i : Nat) (b : Byte) :
    Memory.read (Memory.write m i b) i = some b := by
  induction m with
  | nil => simp [Memory.write, Memory.read]
  | cons c m ih =>
    obtain ⟨j, d⟩ := c
    simp only [Memory.write]
    split
    · simp [Memory.read]
    · split
      · simp [Memory.read]
      · simp [Memory.read, *]

/-- A write leaves every other index alone. -/
theorem Memory.read_write_of_ne (m : Memory) {i k : Nat} (b : Byte) (h : k ≠ i) :
    Memory.read (Memory.write m i b) k = Memory.read m k := by
  induction m with
  | nil => simp [Memory.write, Memory.read, h]
  | cons c m ih =>
    obtain ⟨j, d⟩ := c
    simp only [Memory.write]
    split
    · simp [Memory.read, h]
    · split
      · subst_vars; simp [Memory.read, h]
      · simp [Memory.read, ih]

/-- What a write can put into the list: the new cell, or a cell that was there. -/
theorem Memory.mem_write {m : Memory} {i : Nat} {b : Byte} {c : Host.Cell} (h : c ∈ Memory.write m i b) :
    c = (i, b) ∨ c ∈ m := by
  induction m with
  | nil => simpa [Memory.write] using h
  | cons x m ih =>
    obtain ⟨j, d⟩ := x
    simp only [Memory.write] at h
    split at h
    · simpa using h
    · split at h
      · rcases List.mem_cons.mp h with h | h
        · exact .inl h
        · exact .inr (List.mem_cons_of_mem _ h)
      · rcases List.mem_cons.mp h with h | h
        · exact .inr (h ▸ List.mem_cons_self)
        · exact (ih h).imp_right (List.mem_cons_of_mem _)

/-- A write inside the buffer keeps the canonical form. -/
theorem Memory.wf_write {size : Nat} {m : Memory} (hm : Memory.wf size m) {i : Nat} (hi : i < size) (b : Byte) :
    Memory.wf size (Memory.write m i b) := by
  constructor
  · have hp := hm.1
    clear hm
    induction m with
    | nil => simp [Memory.write]
    | cons x m ih =>
      obtain ⟨j, d⟩ := x
      obtain ⟨hx, hp'⟩ := List.pairwise_cons.mp hp
      simp only [Memory.write]
      split
      · rename_i hlt
        refine List.pairwise_cons.mpr ⟨fun c hc => ?_, hp⟩
        rcases List.mem_cons.mp hc with rfl | hc
        · exact hlt
        · exact Nat.lt_trans hlt (hx c hc)
      · split
        · rename_i heq
          exact List.pairwise_cons.mpr ⟨fun c hc => heq ▸ hx c hc, hp'⟩
        · refine List.pairwise_cons.mpr ⟨fun c hc => ?_, ih hp'⟩
          rcases Memory.mem_write hc with rfl | hc
          · show j < i; omega
          · exact hx c hc
  · intro c hc
    rcases Memory.mem_write hc with rfl | hc
    · exact hi
    · exact hm.2 c hc

/-- Writing a byte string leaves every index outside it alone. -/
theorem Memory.read_writeBytes_outside (m : Memory) (i : Nat) (bs : Bytes) {k : Nat} (h : k < i ∨ i + bs.length ≤ k) :
    Memory.read (Memory.writeBytes m i bs) k = Memory.read m k := by
  induction bs generalizing m i with
  | nil => rfl
  | cons b bs ih =>
    simp only [List.length_cons] at h
    rw [Memory.writeBytes, ih _ _ (by omega), Memory.read_write_of_ne _ _ (by omega)]

/-- After writing a byte string, each of its indices reads its byte. -/
theorem Memory.read_writeBytes_inside (m : Memory) (i : Nat) (bs : Bytes) {k : Nat} (h : k < bs.length) :
    Memory.read (Memory.writeBytes m i bs) (i + k) = some bs[k] := by
  induction bs generalizing m i k with
  | nil => simp at h
  | cons b bs ih =>
    rw [Memory.writeBytes]
    cases k with
    | zero => simp [Memory.read_writeBytes_outside _ (i + 1) bs (k := i) (by omega)]
    | succ k =>
      have := ih (Memory.write m i b) (i + 1) (k := k) (by simpa using h)
      simpa [Nat.add_assoc, Nat.add_comm 1 k] using this

/-- Writing a byte string inside the buffer keeps the canonical form. -/
theorem Memory.wf_writeBytes {size : Nat} {m : Memory} (hm : Memory.wf size m) (i : Nat) (bs : Bytes)
    (hi : i + bs.length ≤ size) : Memory.wf size (Memory.writeBytes m i bs) := by
  induction bs generalizing m i with
  | nil => exact hm
  | cons b bs ih =>
    simp only [List.length_cons] at hi
    exact ih (Memory.wf_write hm (by omega) b) (i + 1) (by omega)

/-- Everything a byte read can answer: the byte that was written, inside the buffer. -/
theorem Memory.fetch_eq_ok {size : Nat} {m : Memory} {i : Nat} {b : Byte} :
    Memory.fetch size m i = .ok b ↔ i < size ∧ Memory.read m i = some b := by
  unfold Memory.fetch
  split
  · split <;> simp_all
  · simp_all

/-- Everything a read of a byte string can answer: `n` bytes, each the one written at its index, all inside the
buffer. -/
theorem Memory.fetchBytes_eq_ok {size : Nat} {m : Memory} {i n : Nat} {bs : Bytes} :
    Memory.fetchBytes size m i n = .ok bs ↔
      bs.length = n ∧ ∀ k (h : k < bs.length), i + k < size ∧ Memory.read m (i + k) = some bs[k] := by
  induction n generalizing i bs with
  | zero =>
    simp only [Memory.fetchBytes, Except.ok.injEq]
    constructor
    · rintro rfl; simp
    · rintro ⟨h, -⟩; exact (List.eq_nil_of_length_eq_zero h).symm
  | succ n ih =>
    simp only [Memory.fetchBytes]
    constructor
    · intro h
      split at h
      · cases h
      · rename_i b hb
        split at h
        · cases h
        · rename_i bs' hbs
          cases h
          obtain ⟨hl, hr⟩ := ih.mp hbs
          refine ⟨by simp [hl], fun k hk => ?_⟩
          cases k with
          | zero => simpa using Memory.fetch_eq_ok.mp hb
          | succ k =>
            have := hr k (by simpa using hk)
            simpa [Nat.add_assoc, Nat.add_comm 1 k] using this
    · rintro ⟨hl, hr⟩
      cases bs with
      | nil => simp at hl
      | cons b bs =>
        have hb : Memory.fetch size m i = .ok b := Memory.fetch_eq_ok.mpr (hr 0 (by simp))
        have hbs : Memory.fetchBytes size m (i + 1) n = .ok bs := by
          refine ih.mpr ⟨by simpa using hl, fun k hk => ?_⟩
          have := hr (k + 1) (by simpa using hk)
          simpa [Nat.add_assoc, Nat.add_comm 1 k] using this
        simp [hb, hbs]

/-- Reading back a byte string just written at index 0. -/
theorem Memory.fetchBytes_writeBytes {size : Nat} (m : Memory) (bs : Bytes) (h : bs.length ≤ size) :
    Memory.fetchBytes size (Memory.writeBytes m 0 bs) 0 bs.length = .ok bs := by
  refine Memory.fetchBytes_eq_ok.mpr ⟨rfl, fun k hk => ⟨by omega, ?_⟩⟩
  simpa using Memory.read_writeBytes_inside m 0 bs hk

/-! ## The live bytes -/

/-- The live bytes are the ones written, and no other index has a value. -/
@[simp] theorem Memory.read_live (bs : Bytes) (k : Nat) : Memory.read (Memory.live bs) k = bs[k]? := by
  unfold Memory.live
  by_cases h : k < bs.length
  · have := Memory.read_writeBytes_inside [] 0 bs h
    rw [Nat.zero_add] at this
    rw [this, List.getElem?_eq_getElem h]
  · rw [Memory.read_writeBytes_outside _ _ _ (.inr (by omega)), List.getElem?_eq_none (by omega)]
    rfl

/-- A buffer that holds only live bytes has the canonical form. -/
theorem Memory.wf_live {size : Nat} {bs : Bytes} (h : bs.length ≤ size) : Memory.wf size (Memory.live bs) :=
  Memory.wf_writeBytes ⟨List.Pairwise.nil, fun c hc => by cases hc⟩ 0 bs (by omega)

/-- Reading the live bytes back. -/
theorem Memory.fetchBytes_live {size : Nat} {bs : Bytes} (h : bs.length ≤ size) :
    Memory.fetchBytes size (Memory.live bs) 0 bs.length = .ok bs :=
  Memory.fetchBytes_writeBytes [] bs h

end Sys2Proof.Machine
end

