-- ==== Sys2Proof/Laws/State.lean ====
section
/-! SUPPORT. One lemma per field for each named update of State, all true by unfolding the update once. -/

namespace Sys2Proof.Machine

variable (s : State)

@[simp] theorem State.emit_devid (o : Output) : (s.emit o).devid = s.devid := rfl
@[simp] theorem State.emit_seq (o : Output) : (s.emit o).seq = s.seq := rfl
@[simp] theorem State.emit_maxRetry (o : Output) : (s.emit o).maxRetry = s.maxRetry := rfl
@[simp] theorem State.emit_timeout (o : Output) : (s.emit o).timeout = s.timeout := rfl
@[simp] theorem State.emit_autoAck (o : Output) : (s.emit o).autoAck = s.autoAck := rfl
@[simp] theorem State.emit_arq (o : Output) : (s.emit o).arq = s.arq := rfl
@[simp] theorem State.emit_cancelled (o : Output) : (s.emit o).cancelled = s.cancelled := rfl
@[simp] theorem State.emit_ackTxFail (o : Output) : (s.emit o).ackTxFail = s.ackTxFail := rfl
@[simp] theorem State.emit_resultErr (o : Output) : (s.emit o).resultErr = s.resultErr := rfl
@[simp] theorem State.emit_attempts (o : Output) : (s.emit o).attempts = s.attempts := rfl
@[simp] theorem State.emit_waitRem (o : Output) : (s.emit o).waitRem = s.waitRem := rfl
@[simp] theorem State.emit_outSeq (o : Output) : (s.emit o).outSeq = s.outSeq := rfl
@[simp] theorem State.emit_txLen (o : Output) : (s.emit o).txLen = s.txLen := rfl
@[simp] theorem State.emit_rxValid (o : Output) : (s.emit o).rxValid = s.rxValid := rfl
@[simp] theorem State.emit_rxErr (o : Output) : (s.emit o).rxErr = s.rxErr := rfl
@[simp] theorem State.emit_rxAck (o : Output) : (s.emit o).rxAck = s.rxAck := rfl
@[simp] theorem State.emit_rxSrc (o : Output) : (s.emit o).rxSrc = s.rxSrc := rfl
@[simp] theorem State.emit_rxDst (o : Output) : (s.emit o).rxDst = s.rxDst := rfl
@[simp] theorem State.emit_rxSeq (o : Output) : (s.emit o).rxSeq = s.rxSeq := rfl
@[simp] theorem State.emit_rxLen (o : Output) : (s.emit o).rxLen = s.rxLen := rfl
@[simp] theorem State.emit_txf (o : Output) : (s.emit o).txf = s.txf := rfl
@[simp] theorem State.emit_rxp (o : Output) : (s.emit o).rxp = s.rxp := rfl
@[simp] theorem State.emit_params (o : Output) : (s.emit o).params = s.params := rfl
@[simp] theorem State.emit_inbox (o : Output) : (s.emit o).inbox = s.inbox := rfl
@[simp] theorem State.emit_txOk (o : Output) : (s.emit o).txOk = s.txOk := rfl
@[simp] theorem State.emit_out (o : Output) : (s.emit o).out = s.out ++ [o] := rfl

@[simp] theorem State.respond_devid (err : ErrCode) (val : Value) (data : Bytes) : (s.respond err val data).devid = s.devid := rfl
@[simp] theorem State.respond_seq (err : ErrCode) (val : Value) (data : Bytes) : (s.respond err val data).seq = s.seq := rfl
@[simp] theorem State.respond_maxRetry (err : ErrCode) (val : Value) (data : Bytes) : (s.respond err val data).maxRetry = s.maxRetry := rfl
@[simp] theorem State.respond_timeout (err : ErrCode) (val : Value) (data : Bytes) : (s.respond err val data).timeout = s.timeout := rfl
@[simp] theorem State.respond_autoAck (err : ErrCode) (val : Value) (data : Bytes) : (s.respond err val data).autoAck = s.autoAck := rfl
@[simp] theorem State.respond_arq (err : ErrCode) (val : Value) (data : Bytes) : (s.respond err val data).arq = s.arq := rfl
@[simp] theorem State.respond_cancelled (err : ErrCode) (val : Value) (data : Bytes) : (s.respond err val data).cancelled = s.cancelled := rfl
@[simp] theorem State.respond_ackTxFail (err : ErrCode) (val : Value) (data : Bytes) : (s.respond err val data).ackTxFail = s.ackTxFail := rfl
@[simp] theorem State.respond_resultErr (err : ErrCode) (val : Value) (data : Bytes) : (s.respond err val data).resultErr = s.resultErr := rfl
@[simp] theorem State.respond_attempts (err : ErrCode) (val : Value) (data : Bytes) : (s.respond err val data).attempts = s.attempts := rfl
@[simp] theorem State.respond_waitRem (err : ErrCode) (val : Value) (data : Bytes) : (s.respond err val data).waitRem = s.waitRem := rfl
@[simp] theorem State.respond_outSeq (err : ErrCode) (val : Value) (data : Bytes) : (s.respond err val data).outSeq = s.outSeq := rfl
@[simp] theorem State.respond_txLen (err : ErrCode) (val : Value) (data : Bytes) : (s.respond err val data).txLen = s.txLen := rfl
@[simp] theorem State.respond_rxValid (err : ErrCode) (val : Value) (data : Bytes) : (s.respond err val data).rxValid = s.rxValid := rfl
@[simp] theorem State.respond_rxErr (err : ErrCode) (val : Value) (data : Bytes) : (s.respond err val data).rxErr = s.rxErr := rfl
@[simp] theorem State.respond_rxAck (err : ErrCode) (val : Value) (data : Bytes) : (s.respond err val data).rxAck = s.rxAck := rfl
@[simp] theorem State.respond_rxSrc (err : ErrCode) (val : Value) (data : Bytes) : (s.respond err val data).rxSrc = s.rxSrc := rfl
@[simp] theorem State.respond_rxDst (err : ErrCode) (val : Value) (data : Bytes) : (s.respond err val data).rxDst = s.rxDst := rfl
@[simp] theorem State.respond_rxSeq (err : ErrCode) (val : Value) (data : Bytes) : (s.respond err val data).rxSeq = s.rxSeq := rfl
@[simp] theorem State.respond_rxLen (err : ErrCode) (val : Value) (data : Bytes) : (s.respond err val data).rxLen = s.rxLen := rfl
@[simp] theorem State.respond_txf (err : ErrCode) (val : Value) (data : Bytes) : (s.respond err val data).txf = s.txf := rfl
@[simp] theorem State.respond_rxp (err : ErrCode) (val : Value) (data : Bytes) : (s.respond err val data).rxp = s.rxp := rfl
@[simp] theorem State.respond_params (err : ErrCode) (val : Value) (data : Bytes) : (s.respond err val data).params = s.params := rfl
@[simp] theorem State.respond_inbox (err : ErrCode) (val : Value) (data : Bytes) : (s.respond err val data).inbox = s.inbox := rfl
@[simp] theorem State.respond_txOk (err : ErrCode) (val : Value) (data : Bytes) : (s.respond err val data).txOk = s.txOk := rfl
@[simp] theorem State.respond_out (err : ErrCode) (val : Value) (data : Bytes) : (s.respond err val data).out = s.out ++ [.rsp err val data] := rfl

@[simp] theorem State.returnToIdle_devid : (s.returnToIdle).devid = s.devid := rfl
@[simp] theorem State.returnToIdle_seq : (s.returnToIdle).seq = s.seq := rfl
@[simp] theorem State.returnToIdle_maxRetry : (s.returnToIdle).maxRetry = s.maxRetry := rfl
@[simp] theorem State.returnToIdle_timeout : (s.returnToIdle).timeout = s.timeout := rfl
@[simp] theorem State.returnToIdle_autoAck : (s.returnToIdle).autoAck = s.autoAck := rfl
@[simp] theorem State.returnToIdle_arq : (s.returnToIdle).arq = .idle := rfl
@[simp] theorem State.returnToIdle_cancelled : (s.returnToIdle).cancelled = s.cancelled := rfl
@[simp] theorem State.returnToIdle_ackTxFail : (s.returnToIdle).ackTxFail = s.ackTxFail := rfl
@[simp] theorem State.returnToIdle_resultErr : (s.returnToIdle).resultErr = s.resultErr := rfl
@[simp] theorem State.returnToIdle_attempts : (s.returnToIdle).attempts = s.attempts := rfl
@[simp] theorem State.returnToIdle_waitRem : (s.returnToIdle).waitRem = s.waitRem := rfl
@[simp] theorem State.returnToIdle_outSeq : (s.returnToIdle).outSeq = s.outSeq := rfl
@[simp] theorem State.returnToIdle_txLen : (s.returnToIdle).txLen = s.txLen := rfl
@[simp] theorem State.returnToIdle_rxValid : (s.returnToIdle).rxValid = s.rxValid := rfl
@[simp] theorem State.returnToIdle_rxErr : (s.returnToIdle).rxErr = s.rxErr := rfl
@[simp] theorem State.returnToIdle_rxAck : (s.returnToIdle).rxAck = s.rxAck := rfl
@[simp] theorem State.returnToIdle_rxSrc : (s.returnToIdle).rxSrc = s.rxSrc := rfl
@[simp] theorem State.returnToIdle_rxDst : (s.returnToIdle).rxDst = s.rxDst := rfl
@[simp] theorem State.returnToIdle_rxSeq : (s.returnToIdle).rxSeq = s.rxSeq := rfl
@[simp] theorem State.returnToIdle_rxLen : (s.returnToIdle).rxLen = s.rxLen := rfl
@[simp] theorem State.returnToIdle_txf : (s.returnToIdle).txf = s.txf := rfl
@[simp] theorem State.returnToIdle_rxp : (s.returnToIdle).rxp = s.rxp := rfl
@[simp] theorem State.returnToIdle_params : (s.returnToIdle).params = s.params := rfl
@[simp] theorem State.returnToIdle_inbox : (s.returnToIdle).inbox = s.inbox := rfl
@[simp] theorem State.returnToIdle_txOk : (s.returnToIdle).txOk = s.txOk := rfl
@[simp] theorem State.returnToIdle_out : (s.returnToIdle).out = s.out := rfl

@[simp] theorem State.resolve_devid (err : ErrCode) : (s.resolve err).devid = s.devid := rfl
@[simp] theorem State.resolve_seq (err : ErrCode) : (s.resolve err).seq = s.seq := rfl
@[simp] theorem State.resolve_maxRetry (err : ErrCode) : (s.resolve err).maxRetry = s.maxRetry := rfl
@[simp] theorem State.resolve_timeout (err : ErrCode) : (s.resolve err).timeout = s.timeout := rfl
@[simp] theorem State.resolve_autoAck (err : ErrCode) : (s.resolve err).autoAck = s.autoAck := rfl
@[simp] theorem State.resolve_arq (err : ErrCode) : (s.resolve err).arq = .idle := rfl
@[simp] theorem State.resolve_cancelled (err : ErrCode) : (s.resolve err).cancelled = s.cancelled := rfl
@[simp] theorem State.resolve_ackTxFail (err : ErrCode) : (s.resolve err).ackTxFail = s.ackTxFail := rfl
@[simp] theorem State.resolve_resultErr (err : ErrCode) : (s.resolve err).resultErr = err := rfl
@[simp] theorem State.resolve_attempts (err : ErrCode) : (s.resolve err).attempts = s.attempts := rfl
@[simp] theorem State.resolve_waitRem (err : ErrCode) : (s.resolve err).waitRem = s.waitRem := rfl
@[simp] theorem State.resolve_outSeq (err : ErrCode) : (s.resolve err).outSeq = s.outSeq := rfl
@[simp] theorem State.resolve_txLen (err : ErrCode) : (s.resolve err).txLen = s.txLen := rfl
@[simp] theorem State.resolve_rxValid (err : ErrCode) : (s.resolve err).rxValid = s.rxValid := rfl
@[simp] theorem State.resolve_rxErr (err : ErrCode) : (s.resolve err).rxErr = s.rxErr := rfl
@[simp] theorem State.resolve_rxAck (err : ErrCode) : (s.resolve err).rxAck = s.rxAck := rfl
@[simp] theorem State.resolve_rxSrc (err : ErrCode) : (s.resolve err).rxSrc = s.rxSrc := rfl
@[simp] theorem State.resolve_rxDst (err : ErrCode) : (s.resolve err).rxDst = s.rxDst := rfl
@[simp] theorem State.resolve_rxSeq (err : ErrCode) : (s.resolve err).rxSeq = s.rxSeq := rfl
@[simp] theorem State.resolve_rxLen (err : ErrCode) : (s.resolve err).rxLen = s.rxLen := rfl
@[simp] theorem State.resolve_txf (err : ErrCode) : (s.resolve err).txf = s.txf := rfl
@[simp] theorem State.resolve_rxp (err : ErrCode) : (s.resolve err).rxp = s.rxp := rfl
@[simp] theorem State.resolve_params (err : ErrCode) : (s.resolve err).params = s.params := rfl
@[simp] theorem State.resolve_inbox (err : ErrCode) : (s.resolve err).inbox = s.inbox := rfl
@[simp] theorem State.resolve_txOk (err : ErrCode) : (s.resolve err).txOk = s.txOk := rfl
@[simp] theorem State.resolve_out (err : ErrCode) : (s.resolve err).out = s.out ++ [.rsp err (s.attempts.zeroExtend 32) []] := rfl

@[simp] theorem State.recordFrame_devid (fr : Frame) : (s.recordFrame fr).devid = s.devid := rfl
@[simp] theorem State.recordFrame_seq (fr : Frame) : (s.recordFrame fr).seq = s.seq := rfl
@[simp] theorem State.recordFrame_maxRetry (fr : Frame) : (s.recordFrame fr).maxRetry = s.maxRetry := rfl
@[simp] theorem State.recordFrame_timeout (fr : Frame) : (s.recordFrame fr).timeout = s.timeout := rfl
@[simp] theorem State.recordFrame_autoAck (fr : Frame) : (s.recordFrame fr).autoAck = s.autoAck := rfl
@[simp] theorem State.recordFrame_arq (fr : Frame) : (s.recordFrame fr).arq = s.arq := rfl
@[simp] theorem State.recordFrame_cancelled (fr : Frame) : (s.recordFrame fr).cancelled = s.cancelled := rfl
@[simp] theorem State.recordFrame_ackTxFail (fr : Frame) : (s.recordFrame fr).ackTxFail = s.ackTxFail := rfl
@[simp] theorem State.recordFrame_resultErr (fr : Frame) : (s.recordFrame fr).resultErr = s.resultErr := rfl
@[simp] theorem State.recordFrame_attempts (fr : Frame) : (s.recordFrame fr).attempts = s.attempts := rfl
@[simp] theorem State.recordFrame_waitRem (fr : Frame) : (s.recordFrame fr).waitRem = s.waitRem := rfl
@[simp] theorem State.recordFrame_outSeq (fr : Frame) : (s.recordFrame fr).outSeq = s.outSeq := rfl
@[simp] theorem State.recordFrame_txLen (fr : Frame) : (s.recordFrame fr).txLen = s.txLen := rfl
@[simp] theorem State.recordFrame_rxValid (fr : Frame) : (s.recordFrame fr).rxValid = true := rfl
@[simp] theorem State.recordFrame_rxErr (fr : Frame) : (s.recordFrame fr).rxErr = .success := rfl
@[simp] theorem State.recordFrame_rxAck (fr : Frame) : (s.recordFrame fr).rxAck = fr.isAck := rfl
@[simp] theorem State.recordFrame_rxSrc (fr : Frame) : (s.recordFrame fr).rxSrc = fr.src := rfl
@[simp] theorem State.recordFrame_rxDst (fr : Frame) : (s.recordFrame fr).rxDst = fr.dst := rfl
@[simp] theorem State.recordFrame_rxSeq (fr : Frame) : (s.recordFrame fr).rxSeq = fr.seq := rfl
@[simp] theorem State.recordFrame_rxLen (fr : Frame) : (s.recordFrame fr).rxLen = BitVec.ofNat 8 fr.payload.length := rfl
@[simp] theorem State.recordFrame_txf (fr : Frame) : (s.recordFrame fr).txf = s.txf := rfl
@[simp] theorem State.recordFrame_rxp (fr : Frame) : (s.recordFrame fr).rxp = Memory.live fr.payload := rfl
@[simp] theorem State.recordFrame_params (fr : Frame) : (s.recordFrame fr).params = s.params := rfl
@[simp] theorem State.recordFrame_inbox (fr : Frame) : (s.recordFrame fr).inbox = s.inbox := rfl
@[simp] theorem State.recordFrame_txOk (fr : Frame) : (s.recordFrame fr).txOk = s.txOk := rfl
@[simp] theorem State.recordFrame_out (fr : Frame) : (s.recordFrame fr).out = s.out := rfl

@[simp] theorem State.recordReject_devid (e : DecodeError) : (s.recordReject e).devid = s.devid := rfl
@[simp] theorem State.recordReject_seq (e : DecodeError) : (s.recordReject e).seq = s.seq := rfl
@[simp] theorem State.recordReject_maxRetry (e : DecodeError) : (s.recordReject e).maxRetry = s.maxRetry := rfl
@[simp] theorem State.recordReject_timeout (e : DecodeError) : (s.recordReject e).timeout = s.timeout := rfl
@[simp] theorem State.recordReject_autoAck (e : DecodeError) : (s.recordReject e).autoAck = s.autoAck := rfl
@[simp] theorem State.recordReject_arq (e : DecodeError) : (s.recordReject e).arq = s.arq := rfl
@[simp] theorem State.recordReject_cancelled (e : DecodeError) : (s.recordReject e).cancelled = s.cancelled := rfl
@[simp] theorem State.recordReject_ackTxFail (e : DecodeError) : (s.recordReject e).ackTxFail = s.ackTxFail := rfl
@[simp] theorem State.recordReject_resultErr (e : DecodeError) : (s.recordReject e).resultErr = s.resultErr := rfl
@[simp] theorem State.recordReject_attempts (e : DecodeError) : (s.recordReject e).attempts = s.attempts := rfl
@[simp] theorem State.recordReject_waitRem (e : DecodeError) : (s.recordReject e).waitRem = s.waitRem := rfl
@[simp] theorem State.recordReject_outSeq (e : DecodeError) : (s.recordReject e).outSeq = s.outSeq := rfl
@[simp] theorem State.recordReject_txLen (e : DecodeError) : (s.recordReject e).txLen = s.txLen := rfl
@[simp] theorem State.recordReject_rxValid (e : DecodeError) : (s.recordReject e).rxValid = false := rfl
@[simp] theorem State.recordReject_rxErr (e : DecodeError) : (s.recordReject e).rxErr = rejectCode e := rfl
@[simp] theorem State.recordReject_rxAck (e : DecodeError) : (s.recordReject e).rxAck = false := rfl
@[simp] theorem State.recordReject_rxSrc (e : DecodeError) : (s.recordReject e).rxSrc = s.rxSrc := rfl
@[simp] theorem State.recordReject_rxDst (e : DecodeError) : (s.recordReject e).rxDst = s.rxDst := rfl
@[simp] theorem State.recordReject_rxSeq (e : DecodeError) : (s.recordReject e).rxSeq = s.rxSeq := rfl
@[simp] theorem State.recordReject_rxLen (e : DecodeError) : (s.recordReject e).rxLen = s.rxLen := rfl
@[simp] theorem State.recordReject_txf (e : DecodeError) : (s.recordReject e).txf = s.txf := rfl
@[simp] theorem State.recordReject_rxp (e : DecodeError) : (s.recordReject e).rxp = s.rxp := rfl
@[simp] theorem State.recordReject_params (e : DecodeError) : (s.recordReject e).params = s.params := rfl
@[simp] theorem State.recordReject_inbox (e : DecodeError) : (s.recordReject e).inbox = s.inbox := rfl
@[simp] theorem State.recordReject_txOk (e : DecodeError) : (s.recordReject e).txOk = s.txOk := rfl
@[simp] theorem State.recordReject_out (e : DecodeError) : (s.recordReject e).out = s.out := rfl

@[simp] theorem State.refuseCommand_devid : (s.refuseCommand).devid = s.devid := rfl
@[simp] theorem State.refuseCommand_seq : (s.refuseCommand).seq = s.seq := rfl
@[simp] theorem State.refuseCommand_maxRetry : (s.refuseCommand).maxRetry = s.maxRetry := rfl
@[simp] theorem State.refuseCommand_timeout : (s.refuseCommand).timeout = s.timeout := rfl
@[simp] theorem State.refuseCommand_autoAck : (s.refuseCommand).autoAck = s.autoAck := rfl
@[simp] theorem State.refuseCommand_arq : (s.refuseCommand).arq = s.arq := rfl
@[simp] theorem State.refuseCommand_cancelled : (s.refuseCommand).cancelled = s.cancelled := rfl
@[simp] theorem State.refuseCommand_ackTxFail : (s.refuseCommand).ackTxFail = s.ackTxFail := rfl
@[simp] theorem State.refuseCommand_resultErr : (s.refuseCommand).resultErr = s.resultErr := rfl
@[simp] theorem State.refuseCommand_attempts : (s.refuseCommand).attempts = s.attempts := rfl
@[simp] theorem State.refuseCommand_waitRem : (s.refuseCommand).waitRem = s.waitRem := rfl
@[simp] theorem State.refuseCommand_outSeq : (s.refuseCommand).outSeq = s.outSeq := rfl
@[simp] theorem State.refuseCommand_txLen : (s.refuseCommand).txLen = s.txLen := rfl
@[simp] theorem State.refuseCommand_rxValid : (s.refuseCommand).rxValid = s.rxValid := rfl
@[simp] theorem State.refuseCommand_rxErr : (s.refuseCommand).rxErr = s.rxErr := rfl
@[simp] theorem State.refuseCommand_rxAck : (s.refuseCommand).rxAck = s.rxAck := rfl
@[simp] theorem State.refuseCommand_rxSrc : (s.refuseCommand).rxSrc = s.rxSrc := rfl
@[simp] theorem State.refuseCommand_rxDst : (s.refuseCommand).rxDst = s.rxDst := rfl
@[simp] theorem State.refuseCommand_rxSeq : (s.refuseCommand).rxSeq = s.rxSeq := rfl
@[simp] theorem State.refuseCommand_rxLen : (s.refuseCommand).rxLen = s.rxLen := rfl
@[simp] theorem State.refuseCommand_txf : (s.refuseCommand).txf = s.txf := rfl
@[simp] theorem State.refuseCommand_rxp : (s.refuseCommand).rxp = s.rxp := rfl
@[simp] theorem State.refuseCommand_params : (s.refuseCommand).params = s.params := rfl
@[simp] theorem State.refuseCommand_inbox : (s.refuseCommand).inbox = s.inbox := rfl
@[simp] theorem State.refuseCommand_txOk : (s.refuseCommand).txOk = s.txOk := rfl
@[simp] theorem State.refuseCommand_out : (s.refuseCommand).out = s.out ++ [.rsp .refused 0 []] := rfl

@[simp] theorem startAttempt_devid : (startAttempt s).devid = s.devid := rfl
@[simp] theorem startAttempt_seq : (startAttempt s).seq = s.seq := rfl
@[simp] theorem startAttempt_maxRetry : (startAttempt s).maxRetry = s.maxRetry := rfl
@[simp] theorem startAttempt_timeout : (startAttempt s).timeout = s.timeout := rfl
@[simp] theorem startAttempt_autoAck : (startAttempt s).autoAck = s.autoAck := rfl
@[simp] theorem startAttempt_arq : (startAttempt s).arq = .sending := rfl
@[simp] theorem startAttempt_cancelled : (startAttempt s).cancelled = s.cancelled := rfl
@[simp] theorem startAttempt_ackTxFail : (startAttempt s).ackTxFail = s.ackTxFail := rfl
@[simp] theorem startAttempt_resultErr : (startAttempt s).resultErr = .success := rfl
@[simp] theorem startAttempt_attempts : (startAttempt s).attempts = 0 := rfl
@[simp] theorem startAttempt_waitRem : (startAttempt s).waitRem = s.waitRem := rfl
@[simp] theorem startAttempt_outSeq : (startAttempt s).outSeq = s.seq := rfl
@[simp] theorem startAttempt_txLen : (startAttempt s).txLen = s.txLen := rfl
@[simp] theorem startAttempt_rxValid : (startAttempt s).rxValid = s.rxValid := rfl
@[simp] theorem startAttempt_rxErr : (startAttempt s).rxErr = s.rxErr := rfl
@[simp] theorem startAttempt_rxAck : (startAttempt s).rxAck = s.rxAck := rfl
@[simp] theorem startAttempt_rxSrc : (startAttempt s).rxSrc = s.rxSrc := rfl
@[simp] theorem startAttempt_rxDst : (startAttempt s).rxDst = s.rxDst := rfl
@[simp] theorem startAttempt_rxSeq : (startAttempt s).rxSeq = s.rxSeq := rfl
@[simp] theorem startAttempt_rxLen : (startAttempt s).rxLen = s.rxLen := rfl
@[simp] theorem startAttempt_txf : (startAttempt s).txf = s.txf := rfl
@[simp] theorem startAttempt_rxp : (startAttempt s).rxp = s.rxp := rfl
@[simp] theorem startAttempt_params : (startAttempt s).params = s.params := rfl
@[simp] theorem startAttempt_inbox : (startAttempt s).inbox = s.inbox := rfl
@[simp] theorem startAttempt_txOk : (startAttempt s).txOk = s.txOk := rfl
@[simp] theorem startAttempt_out : (startAttempt s).out = s.out := rfl

@[simp] theorem State.takeInput_devid (i : Input) (rest : List Input) : (s.takeInput i rest).devid = s.devid := rfl
@[simp] theorem State.takeInput_seq (i : Input) (rest : List Input) : (s.takeInput i rest).seq = s.seq := rfl
@[simp] theorem State.takeInput_maxRetry (i : Input) (rest : List Input) : (s.takeInput i rest).maxRetry = s.maxRetry := rfl
@[simp] theorem State.takeInput_timeout (i : Input) (rest : List Input) : (s.takeInput i rest).timeout = s.timeout := rfl
@[simp] theorem State.takeInput_autoAck (i : Input) (rest : List Input) : (s.takeInput i rest).autoAck = s.autoAck := rfl
@[simp] theorem State.takeInput_arq (i : Input) (rest : List Input) : (s.takeInput i rest).arq = s.arq := rfl
@[simp] theorem State.takeInput_cancelled (i : Input) (rest : List Input) : (s.takeInput i rest).cancelled = s.cancelled := rfl
@[simp] theorem State.takeInput_ackTxFail (i : Input) (rest : List Input) : (s.takeInput i rest).ackTxFail = s.ackTxFail := rfl
@[simp] theorem State.takeInput_resultErr (i : Input) (rest : List Input) : (s.takeInput i rest).resultErr = s.resultErr := rfl
@[simp] theorem State.takeInput_attempts (i : Input) (rest : List Input) : (s.takeInput i rest).attempts = s.attempts := rfl
@[simp] theorem State.takeInput_waitRem (i : Input) (rest : List Input) : (s.takeInput i rest).waitRem = s.waitRem := rfl
@[simp] theorem State.takeInput_outSeq (i : Input) (rest : List Input) : (s.takeInput i rest).outSeq = s.outSeq := rfl
@[simp] theorem State.takeInput_txLen (i : Input) (rest : List Input) : (s.takeInput i rest).txLen = s.txLen := rfl
@[simp] theorem State.takeInput_rxValid (i : Input) (rest : List Input) : (s.takeInput i rest).rxValid = s.rxValid := rfl
@[simp] theorem State.takeInput_rxErr (i : Input) (rest : List Input) : (s.takeInput i rest).rxErr = s.rxErr := rfl
@[simp] theorem State.takeInput_rxAck (i : Input) (rest : List Input) : (s.takeInput i rest).rxAck = s.rxAck := rfl
@[simp] theorem State.takeInput_rxSrc (i : Input) (rest : List Input) : (s.takeInput i rest).rxSrc = s.rxSrc := rfl
@[simp] theorem State.takeInput_rxDst (i : Input) (rest : List Input) : (s.takeInput i rest).rxDst = s.rxDst := rfl
@[simp] theorem State.takeInput_rxSeq (i : Input) (rest : List Input) : (s.takeInput i rest).rxSeq = s.rxSeq := rfl
@[simp] theorem State.takeInput_rxLen (i : Input) (rest : List Input) : (s.takeInput i rest).rxLen = s.rxLen := rfl
@[simp] theorem State.takeInput_txf (i : Input) (rest : List Input) : (s.takeInput i rest).txf = s.txf := rfl
@[simp] theorem State.takeInput_rxp (i : Input) (rest : List Input) : (s.takeInput i rest).rxp = s.rxp := rfl
@[simp] theorem State.takeInput_params (i : Input) (rest : List Input) : (s.takeInput i rest).params = s.params := rfl
@[simp] theorem State.takeInput_inbox (i : Input) (rest : List Input) : (s.takeInput i rest).inbox = rest := rfl
@[simp] theorem State.takeInput_txOk (i : Input) (rest : List Input) : (s.takeInput i rest).txOk = i.txOk := rfl
@[simp] theorem State.takeInput_out (i : Input) (rest : List Input) : (s.takeInput i rest).out = [] := rfl

@[simp] theorem State.rest_devid : (s.rest).devid = s.devid := rfl
@[simp] theorem State.rest_seq : (s.rest).seq = s.seq := rfl
@[simp] theorem State.rest_maxRetry : (s.rest).maxRetry = s.maxRetry := rfl
@[simp] theorem State.rest_timeout : (s.rest).timeout = s.timeout := rfl
@[simp] theorem State.rest_autoAck : (s.rest).autoAck = s.autoAck := rfl
@[simp] theorem State.rest_arq : (s.rest).arq = s.arq := rfl
@[simp] theorem State.rest_cancelled : (s.rest).cancelled = s.cancelled := rfl
@[simp] theorem State.rest_ackTxFail : (s.rest).ackTxFail = s.ackTxFail := rfl
@[simp] theorem State.rest_resultErr : (s.rest).resultErr = s.resultErr := rfl
@[simp] theorem State.rest_attempts : (s.rest).attempts = s.attempts := rfl
@[simp] theorem State.rest_waitRem : (s.rest).waitRem = s.waitRem := rfl
@[simp] theorem State.rest_outSeq : (s.rest).outSeq = s.outSeq := rfl
@[simp] theorem State.rest_txLen : (s.rest).txLen = s.txLen := rfl
@[simp] theorem State.rest_rxValid : (s.rest).rxValid = s.rxValid := rfl
@[simp] theorem State.rest_rxErr : (s.rest).rxErr = s.rxErr := rfl
@[simp] theorem State.rest_rxAck : (s.rest).rxAck = s.rxAck := rfl
@[simp] theorem State.rest_rxSrc : (s.rest).rxSrc = s.rxSrc := rfl
@[simp] theorem State.rest_rxDst : (s.rest).rxDst = s.rxDst := rfl
@[simp] theorem State.rest_rxSeq : (s.rest).rxSeq = s.rxSeq := rfl
@[simp] theorem State.rest_rxLen : (s.rest).rxLen = s.rxLen := rfl
@[simp] theorem State.rest_txf : (s.rest).txf = s.txf := rfl
@[simp] theorem State.rest_rxp : (s.rest).rxp = s.rxp := rfl
@[simp] theorem State.rest_params : (s.rest).params = s.params := rfl
@[simp] theorem State.rest_inbox : (s.rest).inbox = s.inbox := rfl
@[simp] theorem State.rest_txOk : (s.rest).txOk = s.txOk := rfl
@[simp] theorem State.rest_out : (s.rest).out = [] := rfl

@[simp] theorem State.present_devid (w : Wire) (ok : Bool) : (s.present w ok).devid = s.devid := rfl
@[simp] theorem State.present_seq (w : Wire) (ok : Bool) : (s.present w ok).seq = s.seq := rfl
@[simp] theorem State.present_maxRetry (w : Wire) (ok : Bool) : (s.present w ok).maxRetry = s.maxRetry := rfl
@[simp] theorem State.present_timeout (w : Wire) (ok : Bool) : (s.present w ok).timeout = s.timeout := rfl
@[simp] theorem State.present_autoAck (w : Wire) (ok : Bool) : (s.present w ok).autoAck = s.autoAck := rfl
@[simp] theorem State.present_arq (w : Wire) (ok : Bool) : (s.present w ok).arq = s.arq := rfl
@[simp] theorem State.present_cancelled (w : Wire) (ok : Bool) : (s.present w ok).cancelled = s.cancelled := rfl
@[simp] theorem State.present_ackTxFail (w : Wire) (ok : Bool) : (s.present w ok).ackTxFail = s.ackTxFail := rfl
@[simp] theorem State.present_resultErr (w : Wire) (ok : Bool) : (s.present w ok).resultErr = s.resultErr := rfl
@[simp] theorem State.present_attempts (w : Wire) (ok : Bool) : (s.present w ok).attempts = s.attempts := rfl
@[simp] theorem State.present_waitRem (w : Wire) (ok : Bool) : (s.present w ok).waitRem = s.waitRem := rfl
@[simp] theorem State.present_outSeq (w : Wire) (ok : Bool) : (s.present w ok).outSeq = s.outSeq := rfl
@[simp] theorem State.present_txLen (w : Wire) (ok : Bool) : (s.present w ok).txLen = s.txLen := rfl
@[simp] theorem State.present_rxValid (w : Wire) (ok : Bool) : (s.present w ok).rxValid = s.rxValid := rfl
@[simp] theorem State.present_rxErr (w : Wire) (ok : Bool) : (s.present w ok).rxErr = s.rxErr := rfl
@[simp] theorem State.present_rxAck (w : Wire) (ok : Bool) : (s.present w ok).rxAck = s.rxAck := rfl
@[simp] theorem State.present_rxSrc (w : Wire) (ok : Bool) : (s.present w ok).rxSrc = s.rxSrc := rfl
@[simp] theorem State.present_rxDst (w : Wire) (ok : Bool) : (s.present w ok).rxDst = s.rxDst := rfl
@[simp] theorem State.present_rxSeq (w : Wire) (ok : Bool) : (s.present w ok).rxSeq = s.rxSeq := rfl
@[simp] theorem State.present_rxLen (w : Wire) (ok : Bool) : (s.present w ok).rxLen = s.rxLen := rfl
@[simp] theorem State.present_txf (w : Wire) (ok : Bool) : (s.present w ok).txf = s.txf := rfl
@[simp] theorem State.present_rxp (w : Wire) (ok : Bool) : (s.present w ok).rxp = s.rxp := rfl
@[simp] theorem State.present_params (w : Wire) (ok : Bool) : (s.present w ok).params = s.params := rfl
@[simp] theorem State.present_inbox (w : Wire) (ok : Bool) : (s.present w ok).inbox = ⟨Wire.event w, ok⟩ :: s.inbox := rfl
@[simp] theorem State.present_txOk (w : Wire) (ok : Bool) : (s.present w ok).txOk = s.txOk := rfl
@[simp] theorem State.present_out (w : Wire) (ok : Bool) : (s.present w ok).out = s.out := rfl

end Sys2Proof.Machine
end

