-- ==== Sys2Proof/Laws/Ops.lean ====
section
/-! SUPPORT. One lemma per shared operation that says everything the operation can do; later proofs cite it. -/

namespace Sys2Proof.Machine

/-! ## Results -/

/-- A continued result is a next state exactly when both parts are. -/
theorem Result.andThen_eq_next {r : Result} {k : State → Result} {t : State} :
    r.andThen k = .next t ↔ ∃ u, r = .next u ∧ k u = .next t := by
  cases r <;> simp [Result.andThen]

@[simp] theorem State.whenIdle_of_idle {s : State} (h : s.arq = .idle) (m : State → Result) : s.whenIdle m = m s :=
  if_pos h

@[simp] theorem State.whenIdle_of_not_idle {s : State} (h : s.arq ≠ .idle) (m : State → Result) :
    s.whenIdle m = .next s :=
  if_neg h

/-- All a guarded meaning can answer: its own answer in `Idle`, the unchanged state elsewhere. -/
theorem State.whenIdle_eq_next {s t : State} {m : State → Result} (h : s.whenIdle m = .next t) :
    (s.arq = .idle ∧ m s = .next t) ∨ (s.arq ≠ .idle ∧ t = s) := by
  by_cases hs : s.arq = .idle
  · exact .inl ⟨hs, by simpa [hs] using h⟩
  · rw [State.whenIdle_of_not_idle hs] at h
    exact .inr ⟨hs, by cases h; rfl⟩

/-! ## FrameCodec -/

/-- `encode` fails exactly on a payload over 255 bytes (R100). -/
theorem State.encode_eq_none {s : State} {dst : DeviceId} {p : Bytes} : s.encode dst p = none ↔ 255 < p.length := by
  simp [State.encode, Config.payloadMax]

/-- Everything a successful `encode` does (R99): the frame it builds, the two registers it writes, and the buffer that
holds exactly the frame. -/
theorem State.encode_spec (s : State) (dst : DeviceId) {p : Bytes} (h : p.length ≤ 255) :
    ∃ t, s.encode dst p = some (buildFrame ⟨s.devid, dst, s.seq + 1, p⟩, t) ∧
      t = { s with seq := s.seq + 1, txLen := BitVec.ofNat 9 (10 + p.length), txf := t.txf } ∧
      t.txf = Memory.live (buildFrame ⟨s.devid, dst, s.seq + 1, p⟩) ∧
      t.txLen.toNat = 10 + p.length ∧
      t.txFrame = .ok (buildFrame ⟨s.devid, dst, s.seq + 1, p⟩) ∧ Memory.wf txfSize t.txf := by
  have hn : ¬ p.length > Config.payloadMax := by simpa [Config.payloadMax] using h
  have hl : (BitVec.ofNat 9 (10 + p.length)).toNat = 10 + p.length := by
    rw [BitVec.toNat_ofNat]; omega
  let f := buildFrame ⟨s.devid, dst, s.seq + 1, p⟩
  have hf : f.length = 10 + p.length := buildFrame_length _
  refine ⟨{ s with seq := s.seq + 1, txLen := BitVec.ofNat 9 (10 + p.length), txf := Memory.live f },
    ?_, rfl, rfl, hl, ?_, ?_⟩
  · unfold State.encode
    rw [if_neg hn]
    simp [State.nextFrame, State.seqNext, f]
  · show Memory.fetchBytes txfSize (Memory.live f) 0 (BitVec.ofNat 9 (10 + p.length)).toNat = .ok f
    rw [hl, ← hf]
    exact Memory.fetchBytes_live (by rw [hf]; simp only [txfSize]; omega)
  · exact Memory.wf_live (by rw [hf]; simp only [txfSize]; omega)

/-- Everything an `encode` that answers can have done. -/
theorem State.encode_eq_some {s t : State} {dst : DeviceId} {p f : Bytes} (h : s.encode dst p = some (f, t)) :
    p.length ≤ 255 ∧ f = buildFrame ⟨s.devid, dst, s.seq + 1, p⟩ ∧
      t = { s with seq := s.seq + 1, txLen := BitVec.ofNat 9 (10 + p.length), txf := t.txf } ∧
      t.txf = Memory.live f ∧ t.txLen.toNat = 10 + p.length ∧ t.txFrame = .ok f ∧ Memory.wf txfSize t.txf := by
  have hp : p.length ≤ 255 := by
    by_contra hc
    rw [State.encode_eq_none.mpr (by omega)] at h
    cases h
  obtain ⟨u, hu, h1, h2, h3, h4, h5⟩ := s.encode_spec dst hp
  rw [hu] at h
  cases h
  exact ⟨hp, rfl, h1, h2, h3, h4, h5⟩

/-- What `decode_rec` of a frame leaves in `RXP` (R115). -/
theorem State.recordFrame_rxPayload (s : State) {fr : Frame} (h : fr.payload.length ≤ 255) :
    (s.recordFrame fr).rxPayload = .ok fr.payload ∧ Memory.wf rxpSize (s.recordFrame fr).rxp := by
  have hl : (BitVec.ofNat 8 fr.payload.length).toNat = fr.payload.length := by
    rw [BitVec.toNat_ofNat]; omega
  refine ⟨?_, Memory.wf_live (by simpa [rxpSize] using h)⟩
  · show Memory.fetchBytes rxpSize _ 0 (BitVec.ofNat 8 fr.payload.length).toNat = _
    rw [hl]
    exact Memory.fetchBytes_live (by simpa [rxpSize] using h)

/-! ## Run to rest (R139) -/

theorem runToRest_of_idle {s : State} (h : s.arq = .idle) : runToRest s = .next s := by
  simp [runToRest, arqSettle, State.atRest, h]

theorem runToRest_of_awaitingAck {s : State} (h : s.arq = .awaitingAck) : runToRest s = .next s := by
  simp [runToRest, arqSettle, State.atRest, h]

/-- Where `Sending` ends: waiting, or resolved with `TransportFailure`; both are at rest. -/
theorem arqSending_eq_next {s t : State} (h : arqSending s = .next t) :
    ∃ f, s.txFrame = .ok f ∧
      ((s.txOk = true ∧ t = { s.emit (.transmit f) with waitRem := s.timeout, arq := .awaitingAck }) ∨
       (s.txOk = false ∧ t = (s.emit (.transmit f)).resolve .transportFailure)) := by
  unfold arqSending at h
  split at h
  · cases h
  · rename_i f hf
    refine ⟨f, hf, ?_⟩
    split at h <;> cases h <;> simp_all

/-- `Sending` answers when `TXF[0..TXLEN]` can be read. -/
theorem arqSending_of_frame {s : State} {f : Bytes} (h : s.txFrame = .ok f) :
    arqSending s = .next
      (if s.txOk then { s.emit (.transmit f) with waitRem := s.timeout, arq := .awaitingAck }
      else (s.emit (.transmit f)).resolve .transportFailure) := by
  simp only [arqSending, h]
  split <;> rfl

theorem State.atRest_of_idle {s : State} (h : s.arq = .idle) : s.atRest = true := by simp [State.atRest, h]

theorem State.atRest_of_awaitingAck {s : State} (h : s.arq = .awaitingAck) : s.atRest = true := by
  simp [State.atRest, h]

/-- A settled state stays. -/
theorem arqSettle_of_rest {n : Nat} {s : State} (h : s.atRest = true) : arqSettle n s = .next s := by
  cases n <;> simp [arqSettle, h]

/-- One internal transition that ends at rest ends the run. -/
theorem arqSettle_of_internal {n : Nat} {s t : State} (hs : s.atRest = false) (h : arqInternal s = .next t)
    (ht : t.atRest = true) : arqSettle (n + 1) s = .next t := by
  rw [arqSettle, if_neg (by simp [hs]), h]
  exact arqSettle_of_rest ht

/-- `Sending` runs to rest by its one internal transition. -/
theorem runToRest_of_sending {s : State} (h : s.arq = .sending) : runToRest s = arqSending s := by
  have hi : arqInternal s = arqSending s := by simp [arqInternal, h]
  have hr : s.atRest = false := by simp [State.atRest, h]
  cases hs : arqSending s with
  | next t =>
    refine arqSettle_of_internal hr (hi.trans hs) ?_
    obtain ⟨f, -, ⟨-, rfl⟩ | ⟨-, rfl⟩⟩ := arqSending_eq_next hs
    · exact State.atRest_of_awaitingAck rfl
    · exact State.atRest_of_idle rfl
  | fault r => rw [runToRest, arqSettle, if_neg (by simp [hr]), hi, hs]; rfl
  | refused r => rw [runToRest, arqSettle, if_neg (by simp [hr]), hi, hs]; rfl

theorem runToRest_of_acknowledged {s : State} (h : s.arq = .acknowledged) :
    runToRest s = .next (s.resolve .success) :=
  arqSettle_of_internal (by simp [State.atRest, h]) (by simp [arqInternal, h, arqAcknowledged])
    (State.atRest_of_idle rfl)

theorem runToRest_of_exhausted {s : State} (h : s.arq = .exhausted) :
    runToRest s = .next (s.resolve .retriesExhausted) :=
  arqSettle_of_internal (by simp [State.atRest, h]) (by simp [arqInternal, h, arqExhausted])
    (State.atRest_of_idle rfl)

/-- `Retrying` with retries left transmits again (R133). -/
theorem runToRest_of_retrying_lt {s : State} (h : s.arq = .retrying) (hlt : s.attempts < s.maxRetry) :
    runToRest s = arqSending { s with attempts := s.attempts + 1, arq := .sending } := by
  have hi : arqInternal s = .next { s with attempts := s.attempts + 1, arq := .sending } := by
    simp [arqInternal, h, arqRetrying, hlt]
  rw [runToRest, arqSettle, if_neg (by simp [State.atRest, h]), hi]
  show arqSettle 1 _ = _
  rw [arqSettle, if_neg (by simp [State.atRest])]
  show (arqSending _).andThen (arqSettle 0) = _
  generalize arqSending { s with attempts := s.attempts + 1, arq := .sending } = r
  cases r <;> rfl

/-- `Retrying` with no retries left is exhausted (R133, R136). -/
theorem runToRest_of_retrying_ge {s : State} (h : s.arq = .retrying) (hge : ¬ s.attempts < s.maxRetry) :
    runToRest s = .next ({ s with arq := .exhausted }.resolve .retriesExhausted) := by
  have hi : arqInternal s = .next { s with arq := .exhausted } := by simp [arqInternal, h, arqRetrying, hge]
  rw [runToRest, arqSettle, if_neg (by simp [State.atRest, h]), hi]
  exact arqSettle_of_internal (n := 0) (by simp [State.atRest]) rfl (State.atRest_of_idle rfl)

/-! ## The acknowledgment of a data frame (R152, R153) -/

/-- Everything `sendAck` does. -/
theorem sendAck_spec (fr : Frame) (s : State) :
    ∃ u, s.encode fr.src [Config.ackMark, fr.seq] =
        some (buildFrame ⟨s.devid, fr.src, s.seq + 1, [Config.ackMark, fr.seq]⟩, u) ∧
      sendAck fr s = { u with
        ackTxFail := !s.txOk
        out := s.out ++ ([.transmit (buildFrame ⟨s.devid, fr.src, s.seq + 1, [Config.ackMark, fr.seq]⟩)] ++
          if s.txOk then [] else [.ackTxFail]) } := by
  obtain ⟨u, hu, h1, -⟩ := s.encode_spec fr.src (p := [Config.ackMark, fr.seq]) (by simp)
  refine ⟨u, hu, ?_⟩
  have hok : u.txOk = s.txOk := by rw [h1]
  have hout : u.out = s.out := by rw [h1]
  simp only [sendAck, hu, hok]
  cases h : s.txOk <;> simp [State.emit, hout, hok, h]

end Sys2Proof.Machine
end

