-- ==== Sys2Proof/Laws/PerInstr.lean ====
section
/-! SUPPORT. What holds of every instruction as syntax, one lemma per constructor of Instr. -/

namespace Sys2Proof.Laws.OpcodeRow

/-- The encoding carries the fixed part of the instruction's row of spec/opcode_table.json: `match` under `mask` for a
command, the constant bytes of the pattern for a wire frame (R64, R70, R74). -/
def Fits : Instr → Wire → Prop
  | .crc16 _ _ _, .command w _ => w &&& 0xFF0000000000#48 = 0x010000000000#48
  | .encode _ _ _, .command w _ => w &&& 0xFF0000000000#48 = 0x020000000000#48
  | .decode _ _ _, .command w _ => w &&& 0xFF0000000000#48 = 0x030000000000#48
  | .send _ _ _, .command w _ => w &&& 0xFF0000000000#48 = 0x040000000000#48
  | .rdreg _ _, .command w _ => w &&& 0xFF0000000000#48 = 0x050000000000#48
  | .wrreg _ _, .command w _ => w &&& 0xFF0000000000#48 = 0x060000000000#48
  | .frame _ _ _ p, .buffer f =>
    f.length = 10 + p.length ∧ byteAt f 0 = 0xAA ∧ byteAt f 6 = BitVec.ofNat 8 p.length ∧
      byteAt f (9 + p.length) = 0x55
  | .frameAck _ _ _ k, .buffer f =>
    f.length = 12 ∧ byteAt f 0 = 0xAA ∧ byteAt f 6 = 0x02 ∧ byteAt f 7 = 0x06 ∧ byteAt f 8 = k ∧ byteAt f 11 = 0x55
  | _, _ => False

/-- The instruction's encoding is one of its row. -/
def Statement (i : Instr) : Prop := Fits i (encode i)

/-- Masking a word of either format down to bits 47:40 leaves its `op`. -/
theorem mask_op (w : CommandWord) : w &&& 0xFF0000000000#48 = (CommandWord.op w).setWidth 48 <<< 40 := by
  apply BitVec.eq_of_getLsbD_eq
  intro i hi
  have hm : 0xFF0000000000#48 = (BitVec.allOnes 8).setWidth 48 <<< 40 := by decide
  rw [hm]
  simp only [BitVec.getLsbD_and, BitVec.getLsbD_shiftLeft, BitVec.getLsbD_setWidth, CommandWord.op,
    BitVec.getLsbD_extractLsb', BitVec.getLsbD_allOnes]
  by_cases h : i < 40
  · simp [h]
  · rw [show 40 + (i - 40) = i by omega]
    simp [h, hi, show i - 40 < 8 by omega, show i - 40 < 48 by omega]

theorem crc16 (a : BitVec 16) (reserved : BitVec 8) (data : Bytes) : Statement (.crc16 a reserved data) :=
  (mask_op _).trans (by rw [op_formatB]; decide)

theorem encode (a : BitVec 16) (reserved : BitVec 8) (data : Bytes) : Statement (.encode a reserved data) :=
  (mask_op _).trans (by rw [op_formatB]; decide)

theorem decode (a : BitVec 16) (reserved : BitVec 8) (data : Bytes) : Statement (.decode a reserved data) :=
  (mask_op _).trans (by rw [op_formatB]; decide)

theorem send (a : BitVec 16) (reserved : BitVec 8) (data : Bytes) : Statement (.send a reserved data) :=
  (mask_op _).trans (by rw [op_formatB]; decide)

theorem rdreg (r : BitVec 8) (v : Value) : Statement (.rdreg r v) := (mask_op _).trans (by rw [op_formatR]; decide)

theorem wrreg (r : BitVec 8) (v : Value) : Statement (.wrreg r v) := (mask_op _).trans (by rw [op_formatR]; decide)

theorem frame (src dst : DeviceId) (seq : Byte) (payload : Bytes) : Statement (.frame src dst seq payload) :=
  ⟨buildFrame_length _, rfl, rfl, byteAt_buildFrame_footer ⟨src, dst, seq, payload⟩⟩

theorem frameAck (src dst : DeviceId) (seq acked : Byte) : Statement (.frameAck src dst seq acked) :=
  ⟨rfl, rfl, rfl, rfl, rfl, rfl⟩

end Sys2Proof.Laws.OpcodeRow
end

