-- ==== Sys2Proof/Laws/Transition.lean ====
section
/-! SUPPORT. Everything one event can do, said once: the transitions of LLC and the state each leads to. Statements about
every step are a case analysis over these. -/

namespace Sys2Proof.Machine

/-- `Transition e s t`: handling `e` in `s` (its input taken) leads to `t`. The last five constructors are those of
`AwaitingAck`; `still` is every event without effect. -/
inductive Transition : Event → State → State → Prop where
  /-- `Reset` (R191). -/
  | reset (s : State) :
    Transition .reset s { State.resetWith s.params with inbox := s.inbox, txOk := s.txOk, out := s.out }
  /-- No effect: ticks and cancels in `Idle`, commands during the wait, anything in a transient state. -/
  | still (e : Event) (s : State) (h : e ≠ .reset)
      (hw : (s.arq = .idle ∧ (e = .tick ∨ e = .cancel)) ∨ (s.arq = .awaitingAck ∧ ∃ w d, e = .cmd w d) ∨
        (s.arq ≠ .idle ∧ s.arq ≠ .awaitingAck)) : Transition e s s
  /-- A command that only answers: CRC16, RDREG, an ENCODE of a payload over 255 bytes, and every refusal. -/
  | answer (w : CommandWord) (d : Bytes) (s : State) (err : ErrCode) (val : Value) (h : s.arq = .idle)
      (hl : CommandWord.op w = 0x02 ∨ CommandWord.op w = 0x04 → 255 < d.length) (h4 : CommandWord.op w ≠ 0x04) :
    Transition (.cmd w d) s (s.respond err val [])
  /-- ENCODE (R104). -/
  | encode (a : BitVec 16) (low : BitVec 8) (d f : Bytes) (s u : State) (h : s.arq = .idle)
      (hu : s.encode a d = some (f, u)) :
    Transition (Wire.event (Sys2Proof.encode (.encode a low d))) s (u.respond .success (u.txLen.zeroExtend 32) f)
  /-- DECODE of a frame (R114). -/
  | decodeFrame (w : CommandWord) (d : Bytes) (fr : Frame) (s : State) (val : Value) (h : s.arq = .idle)
      (hop : CommandWord.op w = 0x03) (hd : Sys2Proof.decodeFrame d = .ok fr) :
    Transition (.cmd w d) s ((s.recordFrame fr).respond .success val fr.payload)
  /-- DECODE of something else (R114). -/
  | decodeReject (w : CommandWord) (d : Bytes) (e : DecodeError) (s : State) (h : s.arq = .idle)
      (hop : CommandWord.op w = 0x03) (hd : Sys2Proof.decodeFrame d = .error e) :
    Transition (.cmd w d) s ((s.recordReject e).respond (rejectCode e) 0 [])
  /-- WRREG that writes (R162). -/
  | wrreg (w : CommandWord) (d : Bytes) (r : Reg) (v : Value) (s u : State) (h : s.arq = .idle)
      (hop : CommandWord.op w = 0x06) (hu : s.writeReg r v = some u) :
    Transition (.cmd w d) s (u.respond .success 0 [])
  /-- SEND of a payload over 255 bytes (R122). -/
  | sendLong (w : CommandWord) (d : Bytes) (s : State) (h : s.arq = .idle) (hop : CommandWord.op w = 0x04)
      (hl : 255 < d.length) :
    Transition (.cmd w d) s
      ({ s with cancelled := false, resultErr := .payloadTooLarge }.respond .payloadTooLarge 0 [])
  /-- SEND, first transmission handed over (R120, R124). -/
  | sendOk (a : BitVec 16) (low : BitVec 8) (d f : Bytes) (s u : State) (h : s.arq = .idle)
      (hu : ({ s with cancelled := false } : State).encode a d = some (f, u)) (hok : s.txOk = true) :
    Transition (Wire.event (Sys2Proof.encode (.send a low d))) s
      { (startAttempt u).emit (.transmit f) with waitRem := s.timeout, arq := .awaitingAck }
  /-- SEND, the transport failing at once (R120, R125). -/
  | sendFail (a : BitVec 16) (low : BitVec 8) (d f : Bytes) (s u : State) (h : s.arq = .idle)
      (hu : ({ s with cancelled := false } : State).encode a d = some (f, u)) (hok : s.txOk = false) :
    Transition (Wire.event (Sys2Proof.encode (.send a low d))) s
      (((startAttempt u).emit (.transmit f)).resolve .transportFailure)
  /-- A received buffer that is no frame (R116). -/
  | reject (b : Bytes) (e : DecodeError) (s : State) (h : s.arq = .idle ∨ s.arq = .awaitingAck)
      (hd : Sys2Proof.decodeFrame b = .error e) : Transition (.rxBytes b) s (s.recordReject e)
  /-- A frame that is recorded and dropped: a stray ACK in `Idle` (R150), a frame that resolves nothing during the wait
  (R130). -/
  | drop (b : Bytes) (fr : Frame) (s : State) (hd : Sys2Proof.decodeFrame b = .ok fr)
      (h : (s.arq = .idle ∧ fr.isAck = true) ∨ (s.arq = .awaitingAck ∧ ackMatches fr s = false)) :
    Transition (.rxBytes b) s (s.recordFrame fr)
  /-- A data frame delivered and not acknowledged (R148). -/
  | deliver (b : Bytes) (fr : Frame) (s : State) (h : s.arq = .idle) (hd : Sys2Proof.decodeFrame b = .ok fr)
      (hk : fr.isAck = false) (ha : s.autoAck = false) :
    Transition (.rxBytes b) s ((s.recordFrame fr).emit (.deliver fr.src fr.dst fr.seq fr.payload))
  /-- A data frame delivered and acknowledged (R148, R152, R153). -/
  | deliverAck (b : Bytes) (fr : Frame) (s u : State) (f : Bytes) (h : s.arq = .idle)
      (hd : Sys2Proof.decodeFrame b = .ok fr) (hk : fr.isAck = false) (ha : s.autoAck = true)
      (hu : ((s.recordFrame fr).emit (.deliver fr.src fr.dst fr.seq fr.payload)).encode fr.src
        [Config.ackMark, fr.seq] = some (f, u)) :
    Transition (.rxBytes b) s
      { u with ackTxFail := !s.txOk
               out := u.out ++ ([.transmit f] ++ if s.txOk then [] else [.ackTxFail]) }
  /-- The ACK the wait is for (R129, R135). -/
  | acked (b : Bytes) (fr : Frame) (s : State) (h : s.arq = .awaitingAck) (hd : Sys2Proof.decodeFrame b = .ok fr)
      (hm : ackMatches fr s = true) : Transition (.rxBytes b) s ((s.recordFrame fr).resolve .success)
  /-- A tick before the deadline (R131). -/
  | tickDown (s : State) (h : s.arq = .awaitingAck) (hw : s.waitRem ≠ 1) :
    Transition .tick s { s with waitRem := s.waitRem - 1 }
  /-- The deadline with a retry left, and its transmission (R133, R124, R125). -/
  | retry (s : State) (f : Bytes) (h : s.arq = .awaitingAck) (hw : s.waitRem = 1)
      (hlt : s.attempts.toNat < s.maxRetry.toNat) (hf : s.txFrame = .ok f) :
    Transition .tick s
      (if s.txOk then
        { s with waitRem := s.timeout, attempts := s.attempts + 1, resultErr := .ackTimeout
                 out := s.out ++ [.transmit f] }
      else
        { s with waitRem := 0, attempts := s.attempts + 1, resultErr := .transportFailure, arq := .idle
                 out := s.out ++ [.transmit f, .rsp .transportFailure ((s.attempts + 1).zeroExtend 32) []] })
  /-- The deadline with no retry left (R133, R136). -/
  | exhausted (s : State) (h : s.arq = .awaitingAck) (hw : s.waitRem = 1)
      (hge : s.maxRetry.toNat ≤ s.attempts.toNat) :
    Transition .tick s ({ s with waitRem := 0 }.resolve .retriesExhausted)
  /-- Cancel during the wait (R132). -/
  | cancelled (s : State) (h : s.arq = .awaitingAck) :
    Transition .cancel s ({ s with cancelled := true }.resolve .retriesExhausted)

/-- A step with an input to take handles its event. -/
theorem step_of_inbox {s : State} {e : Event} {ok : Bool} {rest : List Input} (h : s.inbox = ⟨e, ok⟩ :: rest) :
    step s = onEvent e (s.takeInput ⟨e, ok⟩ rest) := by
  unfold step; rw [h]

/-- A tick during the wait. -/
theorem onTick_transition {s t : State} (h : onTick s = .next t) : Transition .tick s t := by
  unfold onTick at h
  have h1 : s.waitRem - 1 = 0 ↔ s.waitRem = 1 := by constructor <;> intro h <;> bv_omega
  split at h
  · rename_i ha
    by_cases hd : s.waitRem = 1
    · rw [if_pos (h1.mpr hd)] at h
      by_cases hlt : s.attempts < s.maxRetry
      · have h2 := (runToRest_of_retrying_lt (by rfl) (by exact hlt)).symm.trans h
        obtain ⟨f, hf, hc⟩ := arqSending_eq_next h2
        have := Transition.retry s f ha hd hlt hf
        rcases hc with ⟨hok, rfl⟩ | ⟨hok, rfl⟩
        · rw [if_pos hok] at this
          simpa [State.emit, ha] using this
        · rw [if_neg (by simpa using hok)] at this
          simpa [State.emit, State.resolve, State.respond, State.returnToIdle, hd] using this
      · have h2 := (runToRest_of_retrying_ge (by rfl) (by exact hlt)).symm.trans h
        cases h2
        have := Transition.exhausted s ha hd (by simpa [BitVec.lt_def] using hlt)
        simpa [State.emit, State.resolve, State.respond, State.returnToIdle, hd] using this
    · have h2 : ¬ s.waitRem - 1 = 0 := fun h => hd (h1.mp h)
      rw [if_neg h2] at h
      cases h
      exact .tickDown s ha hd
  · rename_i ha
    cases h
    by_cases hi : s.arq = .idle
    · exact .still _ _ (by simp) (.inl ⟨hi, .inl rfl⟩)
    · exact .still _ _ (by simp) (.inr (.inr ⟨hi, ha⟩))

/-- A cancel. -/
theorem onCancel_transition {s t : State} (h : onCancel s = .next t) : Transition .cancel s t := by
  unfold onCancel at h
  split at h
  · rename_i ha
    rw [runToRest_of_exhausted (by rfl)] at h
    cases h
    exact .cancelled s ha
  · rename_i ha
    cases h
    by_cases hi : s.arq = .idle
    · exact .still _ _ (by simp) (.inl ⟨hi, .inr rfl⟩)
    · exact .still _ _ (by simp) (.inr (.inr ⟨hi, ha⟩))

/-- Running the instruction a frame decodes to is receiving the frame. -/
theorem exec_toInstr (fr : Frame) (s : State) : exec fr.toInstr s = onFrame fr s := by
  by_cases hk : fr.isAck = true
  · have hp := Frame.isAck_iff.mp hk
    obtain ⟨src, dst, seq, p⟩ := fr
    obtain ⟨x, y, rfl⟩ : ∃ x y, p = [x, y] := List.length_eq_two.mp hp.1
    have hx : x = Config.ackMark := by simpa [Instr.ackForm] using hp.2
    subst hx
    simp [Frame.toInstr, hk, exec, execFrameAck, Frame.ackedSeq, byteAt]
  · simp [Frame.toInstr, hk, exec, execFrame]

/-- The only errors of `decodeFrame`. -/
theorem decodeFrame_error {b : Bytes} {e : DecodeError} (h : decodeFrame b = .error e) :
    e = .malformedFrame ∨ e = .checksumMismatch := by
  unfold decodeFrame at h
  split_ifs at h <;> cases h <;> simp

/-- A received buffer is handled as the frame it is. -/
theorem onWire_of_frame {b : Bytes} {fr : Frame} (h : decodeFrame b = .ok fr) (s : State) :
    onWire (.buffer b) s = onFrame fr s := by
  simp only [onWire, Sys2Proof.decode, h, exec_toInstr]

/-- A received buffer that is no frame is rejected. -/
theorem onWire_of_no_frame {b : Bytes} {e : DecodeError} (h : decodeFrame b = .error e) (s : State) :
    onWire (.buffer b) s = onRejected e s := by
  simp only [onWire, Sys2Proof.decode, h]
  rcases decodeFrame_error h with rfl | rfl <;> rfl

/-- A received buffer. -/
theorem onWire_buffer_transition {b : Bytes} {s t : State} (h : onWire (.buffer b) s = .next t) :
    Transition (.rxBytes b) s t := by
  cases hd : decodeFrame b with
  | error e =>
    simp only [onWire_of_no_frame hd, onRejected] at h
    by_cases hr : s.atRest = true
    · rw [if_pos hr] at h
      cases h
      exact .reject b e s (by simpa [State.atRest] using hr) hd
    · rw [if_neg hr] at h
      cases h
      refine .still _ _ (by simp) (.inr (.inr ?_))
      simpa [State.atRest] using hr
  | ok fr =>
    simp only [onWire_of_frame hd, onFrame] at h
    cases ha : s.arq <;> simp only [ha] at h
    case idle =>
      cases h
      unfold receiveFrame
      by_cases hk : fr.isAck = true
      · rw [if_pos hk]; exact .drop b fr s hd (.inl ⟨ha, hk⟩)
      · rw [if_neg hk]
        have hk : fr.isAck = false := by simpa using hk
        have hauto : (s.recordFrame fr).autoAck = s.autoAck := rfl
        rw [hauto]
        by_cases hx : s.autoAck = true
        · rw [if_pos hx]
          obtain ⟨u, hu, hs⟩ := sendAck_spec fr ((s.recordFrame fr).emit (.deliver fr.src fr.dst fr.seq fr.payload))
          have := Transition.deliverAck b fr s u _ ha hd hk hx hu
          obtain ⟨-, -, e1, -⟩ := State.encode_eq_some hu
          have ho : u.out = ((s.recordFrame fr).emit (.deliver fr.src fr.dst fr.seq fr.payload)).out := by rw [e1]
          rw [ho] at this
          rw [hs]
          exact this
        · rw [if_neg hx]
          exact .deliver b fr s ha hd hk (by simpa using hx)
    case awaitingAck =>
      unfold checkAck at h
      have hm : ackMatches fr (s.recordFrame fr) = ackMatches fr s := rfl
      rw [hm] at h
      by_cases hk : ackMatches fr s = true
      · rw [if_pos hk, runToRest_of_acknowledged (by rfl)] at h
        cases h
        exact .acked b fr s ha hd hk
      · rw [if_neg hk] at h
        cases h
        exact .drop b fr s hd (.inr ⟨ha, by simpa using hk⟩)
    all_goals
      cases h
      exact .still _ _ (by simp) (.inr (.inr ⟨by simp [ha], by simp [ha]⟩))

/-- A command outside `Idle` has no effect (R50, R137). -/
theorem onWire_command_busy {s : State} (h : s.arq ≠ .idle) (w : CommandWord) (d : Bytes) :
    onWire (.command w d) s = .next s := by
  simp only [onWire, Sys2Proof.decode, decodeCommand, decodeFormatB]
  split_ifs <;>
    simp [exec, execCrc16, execEncode, execDecode, execSend, execRdreg, execWrreg, onUndecoded, h]

/-- What a command taken in `Idle` can do. -/
theorem onWire_command_idle {s t : State} {w : CommandWord} {d : Bytes} (hs : s.arq = .idle)
    (h : onWire (.command w d) s = .next t) : Transition (.cmd w d) s t := by
  simp only [onWire, Sys2Proof.decode, decodeCommand, decodeFormatB] at h
  by_cases h1 : CommandWord.op w = 0x01
  · have hne : CommandWord.op w ≠ 0x02 ∧ CommandWord.op w ≠ 0x04 := by rw [h1]; decide
    by_cases hn : d.length = (CommandWord.n w).toNat
    · simp only [if_pos h1, if_pos hn, exec, execCrc16, State.whenIdle_of_idle hs] at h
      cases h
      exact .answer w d s _ _ hs (fun hc => (hc.elim hne.1 hne.2).elim) hne.2
    · simp only [if_pos h1, if_neg hn, onUndecoded, State.whenIdle_of_idle hs] at h; cases h
  · rw [if_neg h1] at h
    by_cases h2 : CommandWord.op w = 0x02
    · by_cases hn : d.length = (CommandWord.n w).toNat
      · simp only [if_pos h2, if_pos hn, exec, execEncode, State.whenIdle_of_idle hs] at h
        split at h
        · rename_i he
          cases h
          exact .answer w d s _ _ hs (fun _ => State.encode_eq_none.mp he) (by rw [h2]; decide)
        · rename_i f u he
          cases h
          have := Transition.encode (CommandWord.a w) (CommandWord.reserved w) d f s u hs he
          rwa [Sys2Proof.encode, formatB_word h2 hn] at this
      · simp only [if_pos h2, if_neg hn, onUndecoded, State.whenIdle_of_idle hs] at h; cases h
    · rw [if_neg h2] at h
      by_cases h3 : CommandWord.op w = 0x03
      · by_cases hn : d.length = (CommandWord.n w).toNat
        · simp only [if_pos h3, if_pos hn, exec, execDecode, State.whenIdle_of_idle hs] at h
          split at h
          · rename_i fr he
            cases h
            exact .decodeFrame w d fr s _ hs h3 he
          · rename_i e he
            cases h
            exact .decodeReject w d e s hs h3 he
        · simp only [if_pos h3, if_neg hn, onUndecoded, State.whenIdle_of_idle hs] at h; cases h
      · rw [if_neg h3] at h
        by_cases h4 : CommandWord.op w = 0x04
        · by_cases hn : d.length = (CommandWord.n w).toNat
          · simp only [if_pos h4, if_pos hn, exec, execSend, State.whenIdle_of_idle hs] at h
            split at h
            · rename_i he
              cases h
              exact .sendLong w d s hs h4 (State.encode_eq_none.mp he)
            · rename_i f u he
              obtain ⟨-, -, e1, -, -, hf, -⟩ := State.encode_eq_some he
              have hok : u.txOk = s.txOk := by rw [e1]
              have hto : u.timeout = s.timeout := by rw [e1]
              rw [runToRest_of_sending (by rfl), arqSending_of_frame (f := f) (by exact hf)] at h
              cases h
              have hto' : (startAttempt u).timeout = s.timeout := hto
              have hok' : (startAttempt u).txOk = s.txOk := hok
              rw [hto', hok']
              split
              · rename_i hx
                have := Transition.sendOk (CommandWord.a w) (CommandWord.reserved w) d f s u hs he hx
                rwa [Sys2Proof.encode, formatB_word h4 hn] at this
              · rename_i hx
                have := Transition.sendFail (CommandWord.a w) (CommandWord.reserved w) d f s u hs he (by simpa using hx)
                rwa [Sys2Proof.encode, formatB_word h4 hn] at this
          · simp only [if_pos h4, if_neg hn, onUndecoded, State.whenIdle_of_idle hs] at h; cases h
        · rw [if_neg h4] at h
          have hl : CommandWord.op w = 0x02 ∨ CommandWord.op w = 0x04 → 255 < d.length :=
            fun hc => (hc.elim h2 h4).elim
          by_cases h5 : CommandWord.op w = 0x05
          · simp only [if_pos h5, exec, execRdreg, State.whenIdle_of_idle hs] at h
            split at h <;> cases h <;> exact .answer w d s _ _ hs hl h4
          · rw [if_neg h5] at h
            by_cases h6 : CommandWord.op w = 0x06
            · simp only [if_pos h6, exec, execWrreg, State.whenIdle_of_idle hs] at h
              split at h
              · rename_i u he
                cases h
                obtain ⟨r, -, hr⟩ := Option.bind_eq_some_iff.mp he
                exact .wrreg w d r _ s u hs h6 hr
              · cases h; exact .answer w d s _ _ hs hl h4
            · rw [if_neg h6] at h
              simp only [onUndecoded, State.whenIdle_of_idle hs] at h
              cases h
              exact .answer w d s _ _ hs hl h4

/-- Everything one event can do: an event that leads to a next state is one of the transitions. -/
theorem onEvent_transition {e : Event} {s t : State} (h : onEvent e s = .next t) : Transition e s t := by
  cases e with
  | cmd w d =>
    by_cases hs : s.arq = .idle
    · exact onWire_command_idle hs h
    · rw [onEvent, onWire_command_busy hs] at h
      cases h
      by_cases ha : s.arq = .awaitingAck
      · exact .still _ _ (by simp) (.inr (.inl ⟨ha, w, d, rfl⟩))
      · exact .still _ _ (by simp) (.inr (.inr ⟨hs, ha⟩))
  | rxBytes b => exact onWire_buffer_transition h
  | tick => exact onTick_transition h
  | cancel => exact onCancel_transition h
  | reset => cases h; exact .reset s

/-- Everything one step can do: rest with an empty inbox, or make the transition of the event it takes. -/
theorem step_transition {s t : State} (h : step s = .next t) :
    (s.inbox = [] ∧ t = s.rest) ∨
      ∃ i rest, s.inbox = i :: rest ∧ Transition i.event (s.takeInput i rest) t := by
  unfold step at h
  split at h
  · rename_i hi; cases h; exact .inl ⟨hi, rfl⟩
  · rename_i i rest hi; exact .inr ⟨i, rest, hi, onEvent_transition h⟩

end Sys2Proof.Machine
end

