-- ==== Sys2Proof/Machine/Script.lean ====
section
/-! DEFINITION. The script lines and pseudo-operations of 30_encoding.md R80 and R81, as inputs of the machine. -/

namespace Sys2Proof.Machine

/-- A line of a script (R80) or a pseudo-operation (R81), without its draw. -/
inductive ScriptLine where
  /-- `CRC16`, `ENCODE`, `DECODE`, `SEND`, `RDREG`, `WRREG`: a command. -/
  | command (i : Instr)
  /-- `@RX`. -/
  | rx (b : Bytes)
  /-- `@TICK`. -/
  | tick
  /-- `@CANCEL`. -/
  | cancel
  /-- `@RESET`. -/
  | reset
  /-- `@TICK xN`. -/
  | tickTimes (n : Nat)
  /-- `SETRETRY k`. -/
  | setRetry (k : Value)
  /-- `SETTIMEOUT t`. -/
  | setTimeout (t : Value)
  /-- `NOACK`. -/
  | noAck
  /-- `AUTOACK`. -/
  | autoAck
deriving DecidableEq, Repr

/-- The input that presents `i` (R72, R63). -/
def Instr.input (i : Instr) (ok : Bool) : Input := ⟨Wire.event (Sys2Proof.encode i), ok⟩

/-- The inputs a line stands for, with the draw the line names (`tx=ok` or `tx=fail`; absent, `tx=ok`, R80); the draw of
`@TICK xN` applies to every tick of the run (R81). -/
def ScriptLine.expand (ok : Bool) : ScriptLine → List Input
  | .command i => [Instr.input i ok]
  | .rx b => [⟨.rxBytes b, ok⟩]
  | .tick => [⟨.tick, ok⟩]
  | .cancel => [⟨.cancel, ok⟩]
  | .reset => [⟨.reset, ok⟩]
  | .tickTimes n => List.replicate n ⟨.tick, ok⟩
  | .setRetry k => [Instr.input (.wrreg 2 k) ok]
  | .setTimeout t => [Instr.input (.wrreg 3 t) ok]
  | .noAck => [Instr.input (.wrreg 4 0) ok]
  | .autoAck => [Instr.input (.wrreg 4 1) ok]

/-- The inputs of a script, line after line. -/
def scriptInputs : List (ScriptLine × Bool) → List Input
  | [] => []
  | (l, ok) :: ls => ScriptLine.expand ok l ++ scriptInputs ls

end Sys2Proof.Machine
end

