-- ==== Sys2Proof/Tests/Slice0.lean ====
section
/-! SUPPORT. Tests of this model: expected values from spec/95_test_vectors.md (named in the docstrings), and for each
statement with hypotheses a concrete case that meets them all (the theorems named witness). -/

namespace Sys2Proof.Tests
open Sys2Proof Sys2Proof.Machine

/-! ## Ill-formed instructions are refused by the check -/

/-- `n` zero bytes. -/
@[irreducible] def zeros (n : Nat) : Bytes := List.replicate n 0

theorem zeros_length (n : Nat) : (zeros n).length = n := by
  unfold zeros; exact List.length_replicate

/-- 65536 data bytes do not fit the 16-bit length of Format B. -/
theorem too_long : decide (Instr.formatBFits (zeros 65536)) = false := by
  rw [decide_eq_false_iff_not, Instr.formatBFits, zeros_length]; decide

theorem test_wf_refuses_crc16_of_65536_bytes : Instr.wf (.crc16 0 0 (zeros 65536)) = false := too_long

theorem test_wf_refuses_encode_of_65536_bytes : Instr.wf (.encode 0 0 (zeros 65536)) = false := too_long

theorem test_wf_refuses_decode_of_65536_bytes : Instr.wf (.decode 0 0 (zeros 65536)) = false := too_long

theorem test_wf_refuses_send_of_65536_bytes : Instr.wf (.send 0 0 (zeros 65536)) = false := too_long

theorem test_wf_refuses_frame_of_256_bytes : Instr.wf (.frame 0 0 0 (List.replicate 256 0)) = false := by decide +kernel

theorem test_wf_refuses_frame_of_ack_form : Instr.wf (.frame 0 0 0 [0x06, 0x09]) = false := by decide

/-! ## Helpers -/

/-- Node A of 95_test_vectors.md at reset, `TICKS_PER_UNIT = 1`, with the inputs `i`. -/
def nodeA (i : List Input) : State := { State.resetWith ⟨0x1234, 1⟩ with inbox := i }

/-- Node B of 95_test_vectors.md at reset. -/
def nodeB (i : List Input) : State := { State.resetWith ⟨0xABCD, 1⟩ with inbox := i }

/-- The next state, if there is one. -/
def nextOf : Result → Option State
  | .next s => some s
  | .fault _ | .refused _ => none

/-- The state after one step (the same state if the step stops). -/
def after (s : State) : State := (nextOf (step s)).getD s

theorem step_eq_after {s : State} (h : (nextOf (step s)).isSome = true) : step s = .next (after s) := by
  unfold after
  cases hs : step s <;> simp_all [nextOf]

/-- The reference frames F1, F2, K1, K2, DF1. -/
def f1 : Bytes := [0xAA, 0x00, 0x01, 0x00, 0x02, 0x01, 0x00, 0xF9, 0x10, 0x55]
def f2 : Bytes := [0xAA, 0x12, 0x34, 0xAB, 0xCD, 0x01, 0x02, 0x48, 0x69, 0x4A, 0x11, 0x55]
def k1 : Bytes := [0xAA, 0xAB, 0xCD, 0x12, 0x34, 0x01, 0x02, 0x06, 0x01, 0x4B, 0x18, 0x55]
def k2 : Bytes := [0xAA, 0xAB, 0xCD, 0x12, 0x34, 0x01, 0x02, 0x06, 0x02, 0x7B, 0x7B, 0x55]
def df1 : Bytes := [0xAA, 0xAB, 0xCD, 0x12, 0x34, 0x01, 0x02, 0x79, 0x6F, 0xDE, 0x17, 0x55]

/-- `SEND dst=0xABCD, "Hi"`, as an input. -/
def sendHi (ok : Bool) : Input := ⟨.cmd 0x04ABCD000200 [0x48, 0x69], ok⟩

/-- Node A waiting for the ACK of `SEND dst=0xABCD, "Hi"`, with the inputs `i` to come. -/
def waiting (i : List Input) : State := { after (nodeA [sendHi true]) with inbox := i, out := [] }

/-- The same, one tick before the deadline, with `a` retries used. -/
def deadline (a : BitVec 8) (i : List Input) : State := { waiting i with waitRem := 1, attempts := a }

/-! ## Encodings: words and frames written out in 95_test_vectors.md -/

/-- V-C8 and V-C1. -/
theorem test_decode_crc16_words :
    decode (.command 0x010000000900 [0x31, 0x32, 0x33, 0x34, 0x35, 0x36, 0x37, 0x38, 0x39]) =
      .ok (.crc16 0 0 [0x31, 0x32, 0x33, 0x34, 0x35, 0x36, 0x37, 0x38, 0x39]) ∧
    decode (.command 0x010000000000 []) = .ok (.crc16 0 0 []) := by decide +kernel

/-- V-F2; a nonzero reserved byte is kept and ignored (R72). -/
theorem test_decode_encode_words :
    decode (.command 0x02ABCD000200 [0x48, 0x69]) = .ok (.encode 0xABCD 0 [0x48, 0x69]) ∧
    decode (.command 0x02ABCD0002FF [0x48, 0x69]) = .ok (.encode 0xABCD 0xFF [0x48, 0x69]) := by decide +kernel

/-- V-D2. -/
theorem test_decode_decode_word : decode (.command 0x030000000C00 f2) = .ok (.decode 0 0 f2) := by decide +kernel

/-- P1 line 3. -/
theorem test_decode_send_word :
    decode (.command 0x04ABCD000200 [0x48, 0x69]) = .ok (.send 0xABCD 0 [0x48, 0x69]) := by decide +kernel

/-- V-G4 and P1 line 5. -/
theorem test_decode_rdreg_words :
    decode (.command 0x050300000000 []) = .ok (.rdreg 3 0) ∧ decode (.command 0x050500000000 []) = .ok (.rdreg 5 0) := by
  decide +kernel

/-- V-G10 and P1 line 1. -/
theorem test_decode_wrreg_words :
    decode (.command 0x060200000100 []) = .ok (.wrreg 2 256) ∧ decode (.command 0x060300000002 []) = .ok (.wrreg 3 2) := by
  decide +kernel

/-- F2 and F1. -/
theorem test_decode_frame_bytes :
    decode (.buffer f2) = .ok (.frame 0x1234 0xABCD 1 [0x48, 0x69]) ∧ decode (.buffer f1) = .ok (.frame 1 2 1 []) := by
  decide +kernel

/-- K1 and K2. -/
theorem test_decode_frameAck_bytes :
    decode (.buffer k1) = .ok (.frameAck 0xABCD 0x1234 1 1) ∧
    decode (.buffer k2) = .ok (.frameAck 0xABCD 0x1234 1 2) := by decide +kernel

/-- V-G18: reserved opcodes. -/
theorem test_decode_reserved_opcodes :
    decode (.command 0x070000000000 []) = .error (.reservedOpcode 0x07) ∧
    decode (.command 0x000000000000 []) = .error (.reservedOpcode 0x00) ∧
    decode (.command 0xFF0000000000 []) = .error (.reservedOpcode 0xFF) := by decide +kernel

/-- V-N1, V-N2, V-N5 to V-N10, V-N12, V-N13: rejected buffers. -/
theorem test_decode_rejected_buffers :
    decodeFrame [] = .error .malformedFrame ∧
    decodeFrame [0xAA, 0x00, 0x01, 0x00, 0x02, 0x01, 0x00, 0xF9, 0x10] = .error .malformedFrame ∧
    decodeFrame [0xAA, 0x12, 0x34, 0xAB, 0xCD, 0x01, 0x02, 0x48, 0x69, 0x4A, 0x11, 0x54] = .error .malformedFrame ∧
    decodeFrame [0xAB, 0x12, 0x34, 0xAB, 0xCD, 0x01, 0x02, 0x48, 0x69, 0x4A, 0x11, 0x55] = .error .malformedFrame ∧
    decodeFrame (f2 ++ [0x55]) = .error .malformedFrame ∧ decodeFrame (f1 ++ [0x55]) = .error .malformedFrame ∧
    decodeFrame [0xAA, 0x00, 0x01, 0x00, 0x02, 0x01, 0x04, 0x00, 0x00, 0x55] = .error .malformedFrame ∧
    decodeFrame [0xAA, 0x12, 0x34, 0xAB, 0xCD, 0x01, 0x01, 0x48, 0x69, 0x4A, 0x11, 0x55] = .error .malformedFrame ∧
    decodeFrame [0xAA, 0x00, 0x00, 0x00, 0x00, 0x00, 0x00, 0x00, 0x00, 0x55] = .error .checksumMismatch ∧
    decodeFrame [0xAB, 0x12, 0x34, 0xAB, 0xCD, 0x01, 0x02, 0x49, 0x69, 0x4A, 0x11, 0x55] = .error .malformedFrame := by
  decide +kernel

/-- The words of spec/opcode_table.json as the host numbers them: a command row, and the bytes of K1 with the first byte
in the least significant place, whole and with a wrong checksum. -/
theorem test_table_words :
    decodeTableWord 48 0x050300000000 = some (.rdreg 3 0) ∧ decodeTableWord 48 0x070000000000 = none ∧
    decodeTableWord 48 0x020002000200 = some (.encode 2 0 [0, 0]) ∧
    decodeTableWord 96 0x55194B010602013412CDABAA = none ∧
    decodeTableWord 96 0x55184B010602013412CDABAA = some (.frameAck 0xABCD 0x1234 1 1) := by decide +kernel

/-! ## What each instruction does -/

/-- V-C8. -/
theorem test_crc16_answers :
    (after (nodeA [⟨.cmd 0x010000000900 [0x31, 0x32, 0x33, 0x34, 0x35, 0x36, 0x37, 0x38, 0x39], true⟩])).out =
      [.rsp .success 0x29B1 []] := by decide +kernel

/-- V-F2. -/
theorem test_encode_builds_f2 :
    let t := after (nodeA [⟨.cmd 0x02ABCD000200 [0x48, 0x69], true⟩])
    t.out = [.rsp .success 12 f2] ∧ t.seq = 1 ∧ t.txLen = 12 := by decide +kernel

/-- V-F7. -/
theorem test_encode_of_256_bytes_fails :
    let t := after (nodeA [⟨.cmd 0x02ABCD010000 (List.replicate 256 0), true⟩])
    t.out = [.rsp .payloadTooLarge 0 []] ∧ t.seq = 0 ∧ t.txLen = 0 := by decide +kernel

/-- V-D2. -/
theorem test_decode_of_f2 :
    let t := after (nodeA [⟨.cmd 0x030000000C00 f2, true⟩])
    t.out = [.rsp .success 0x1234ABCD [0x48, 0x69]] ∧ t.rxstatWord = 0x01 ∧ t.rxLen = 2 := by decide +kernel

/-- V-X8. -/
theorem test_decode_of_corrupted_f2 :
    let t := after (nodeA [⟨.cmd 0x030000000C00
      [0xAA, 0x12, 0x34, 0xAB, 0xCD, 0x01, 0x02, 0x49, 0x69, 0x4A, 0x11, 0x55], true⟩])
    t.out = [.rsp .checksumMismatch 0 []] ∧ t.rxstatWord = 0x06 := by decide +kernel

/-- V-A1, first line. -/
theorem test_send_starts :
    let t := after (nodeA [sendHi true])
    t.out = [.transmit f2] ∧ t.seq = 1 ∧ t.outSeq = 1 ∧ t.waitRem = 2 ∧ t.statusWord = 0x0A ∧ t.txLen = 12 := by
  decide +kernel

/-- V-A7. -/
theorem test_send_transport_failure :
    let t := after (nodeA [sendHi false])
    t.out = [.transmit f2, .rsp .transportFailure 0 []] ∧ t.statusWord = 0 ∧ t.resultWord = 4 ∧ t.seq = 1 := by
  decide +kernel

/-- V-G1 and V-G7, at `TICKS_PER_UNIT = 1`. -/
theorem test_rdreg :
    (after (nodeA [⟨.cmd 0x050000000000 [], true⟩])).out = [.rsp .success 0x1234 []] ∧
    (after (nodeA [⟨.cmd 0x051000000000 [], true⟩])).out = [.rsp .refused 0 []] := by decide +kernel

/-- V-G10 and V-G14. -/
theorem test_wrreg :
    (let t := after (nodeA [⟨.cmd 0x060200000100 [], true⟩]); t.out = [.rsp .refused 0 []] ∧ t.maxRetry = 3) ∧
    (let t := after (nodeA [⟨.cmd 0x0604FFFFFFFF [], true⟩]); t.out = [.rsp .success 0 []] ∧ t.ctrlWord = 1) := by
  decide +kernel

/-- V-RX1. -/
theorem test_frame_is_delivered_and_acknowledged :
    let t := after (nodeB [⟨.rxBytes f2, true⟩])
    t.out = [.deliver 0x1234 0xABCD 1 [0x48, 0x69], .transmit k1] ∧ t.seq = 1 ∧ t.txLen = 12 ∧ t.rxstatWord = 0x01 := by
  decide +kernel

/-- V-RX3's order of outputs, at `SEQ = 2`. -/
theorem test_frame_failed_ack :
    let t := after { nodeB [⟨.rxBytes f2, false⟩] with seq := 2 }
    t.out = [.deliver 0x1234 0xABCD 1 [0x48, 0x69],
      .transmit [0xAA, 0xAB, 0xCD, 0x12, 0x34, 0x03, 0x02, 0x06, 0x01, 0xA6, 0x70, 0x55], .ackTxFail] ∧
    t.statusWord = 0x20 := by decide +kernel

/-- V-A2, second line. -/
theorem test_frameAck_resolves :
    let t := after (waiting [⟨.rxBytes k1, true⟩])
    t.out = [.rsp .success 0 []] ∧ t.statusWord = 0 ∧ t.resultWord = 0 ∧ t.rxstatWord = 0x11 := by decide +kernel

/-- V-A3: K2 and DF1 are dropped during the wait. -/
theorem test_frames_dropped_during_wait :
    (let t := after (waiting [⟨.rxBytes k2, true⟩]); t.out = [] ∧ t.rxstatWord = 0x11 ∧ t.statusWord = 0x0A) ∧
    (let t := after (waiting [⟨.rxBytes df1, true⟩]); t.out = [] ∧ t.rxstatWord = 0x01 ∧ t.waitRem = 2) := by
  decide +kernel

/-- V-A1: the second and the last tick. -/
theorem test_ticks :
    (let t := after (deadline 0 [⟨.tick, true⟩])
     t.out = [.transmit f2] ∧ t.attempts = 1 ∧ t.waitRem = 2 ∧ t.resultWord = 5) ∧
    (let t := after (deadline 3 [⟨.tick, true⟩])
     t.out = [.rsp .retriesExhausted 3 []] ∧ t.waitRem = 0 ∧ t.resultWord = 6 ∧ t.statusWord = 0) := by decide +kernel

/-- V-A5: cancel. -/
theorem test_cancel :
    let t := after (deadline 0 [⟨.cancel, true⟩])
    t.out = [.rsp .retriesExhausted 0 []] ∧ t.statusWord = 0x10 ∧ t.waitRem = 1 := by decide +kernel

/-- V-R2. -/
theorem test_reset_during_wait :
    let t := after (waiting [⟨.reset, true⟩])
    t.out = [] ∧ t.seq = 0 ∧ t.statusWord = 0 ∧ t.timeout = 2 ∧ t.txLen = 0 := by decide +kernel

/-- V-G18 as inputs. -/
theorem test_reserved_opcode_refused :
    (after (nodeA [⟨.cmd 0x070000000000 [], true⟩])).out = [.rsp .refused 0 []] := by decide +kernel

/-- R81: `SETRETRY 5` is `WRREG 2, 5`, and `@TICK x2` is two ticks. -/
theorem test_script_lines :
    ScriptLine.expand true (.setRetry 5) = [⟨.cmd 0x060200000005 [], true⟩] ∧
    ScriptLine.expand false (.tickTimes 2) = [⟨.tick, false⟩, ⟨.tick, false⟩] := by decide +kernel

/-! ## Witnesses: each statement's hypotheses, met -/

theorem witness_DecodeOfEncodeIsTheInstruction :
    Instr.wf (.frame 0 0 0 (List.replicate 255 0)) = true ∧ Instr.wf (.crc16 0 0 (zeros 65535)) = true := by
  refine ⟨by decide +kernel, ?_⟩
  show decide (Instr.formatBFits (zeros 65535)) = true
  rw [decide_eq_true_iff, Instr.formatBFits, zeros_length]; decide

theorem witness_EncodeOfDecodeIsThePresentation :
    decode (.buffer f2) = .ok (.frame 0x1234 0xABCD 1 [0x48, 0x69]) ∧
    decode (.command 0x050300000000 [0x00]) = .ok (.rdreg 3 0) := by decide +kernel

/-- One word for each clause: `op` 1 to 6 with `n` of data, and the reserved 0, 7 and 255. -/
theorem witness_CommandWordFieldsAndReservedOpcodes :
    (([0x00] : Bytes).length = (0x010000000100 : CommandWord).toNat / 2 ^ 8 % 2 ^ 16 ∧
      (0x010000000100 : CommandWord).toNat / 2 ^ 40 = 1) ∧
    ([0x020000000000, 0x030000000000, 0x040000000000, 0x050000000000, 0x060000000000, 0x000000000000, 0x070000000000,
      0xFF0000000000] : List CommandWord).map (fun w => (w.toNat / 2 ^ 8 % 2 ^ 16, w.toNat / 2 ^ 40)) =
      [(0, 2), (0, 3), (0, 4), (0, 5), (0, 6), (0, 0), (0, 7), (0, 255)] := by decide +kernel

theorem witness_CrcDetectsEverySingleBitError : 8 < ([0, 0, 0, 0, 0, 0, 0, 0, 0] : Bytes).length ∧ 7 < 8 := by decide

theorem witness_EncodedFrameLayout :
    ([] : Bytes).length ≤ 255 ∧ (List.replicate 255 0 : Bytes).length ≤ 255 ∧ 254 < (List.replicate 255 0 : Bytes).length := by
  decide +kernel

theorem witness_EncodedFrameDecodesBack : ([] : Bytes).length ≤ 255 ∧ (List.replicate 255 0 : Bytes).length ≤ 255 := by
  decide +kernel

/-- Both sides of the equivalence at the largest payload length and at the smallest. -/
theorem witness_DecodeAcceptsExactlyTheBuiltFrames :
    decodeFrame f1 = .ok ⟨1, 2, 1, []⟩ ∧ f1 = buildFrame ⟨1, 2, 1, []⟩ ∧
    (Frame.mk 0 0 0 (List.replicate 255 0)).payload.length ≤ 255 := by decide +kernel

/-- One buffer for each clause: 9 bytes, a wrong header, a wrong footer, one byte too many, a wrong checksum. -/
theorem witness_DecodeRejectionCodes :
    (f1.take 9).length < 10 ∧ (f1.set 0 0xAB)[0]? ≠ some 0xAA ∧
    (f1.set 9 0x54)[(f1.set 9 0x54).length - 1]? ≠ some 0x55 ∧
    (f1 ++ [0x55]).length ≠ 10 + (byteAt (f1 ++ [0x55]) 6).toNat ∧
    (let raw := f1.set 8 0x11
     10 ≤ raw.length ∧ raw[0]? = some 0xAA ∧ raw[raw.length - 1]? = some 0x55 ∧ raw.length = 10 + (byteAt raw 6).toNat ∧
       (crc16 (slice raw 1 (7 + (byteAt raw 6).toNat))).toNat ≠
         (byteAt raw (7 + (byteAt raw 6).toNat)).toNat * 256 + (byteAt raw (8 + (byteAt raw 6).toNat)).toNat) := by
  decide +kernel

/-- One case for each clause: the longest proper start, one byte more, the last bit of the last byte, no bytes. -/
theorem witness_DamagedFramesAreRejected :
    let fr : Frame := ⟨0x1234, 0xABCD, 1, [0x48, 0x69]⟩
    fr.payload.length ≤ 255 ∧ 11 < (buildFrame fr).length ∧ ([0x55] : Bytes) ≠ [] ∧ 7 < 8 ∧
    ([] : Bytes).getLast? ≠ some 0x55 ∧ f2.dropLast.getLast? ≠ some 0x55 := by decide +kernel

/-- `Idle`, and data on both sides of the bound: for `Crc16AnswersTheChecksum`, `EncodeAnswersTheFrame`,
`EncodeFailsExactlyOnLongPayloads`, `RdregAnswersTheRegister`, `WrregWritesOrRefuses`, `SendStartsTheAttempt` and
`SendRefusesLongPayloads`. -/
theorem witness_commands_in_idle :
    (nodeA []).arq = .idle ∧ (List.replicate 255 0 : Bytes).length ≤ 255 ∧ 255 < (List.replicate 256 0 : Bytes).length := by
  decide +kernel

/-- A buffer for each clause of `DecodeCommandAnswers`. -/
theorem witness_DecodeCommandAnswers :
    (nodeA []).arq = .idle ∧ decodeFrame f2 = .ok ⟨0x1234, 0xABCD, 1, [0x48, 0x69]⟩ ∧
    decodeFrame [] = .error .malformedFrame := by decide +kernel

/-- A state in `Sending` whose frame can be read. -/
theorem witness_SendingTransmitsOnce :
    ({ waiting [] with arq := .sending } : State).arq = .sending ∧
    State.txFrame { waiting [] with arq := .sending } = .ok f2 := by decide +kernel

/-- The four branches: before the deadline, and at it with retries left (either draw) and with none. -/
theorem witness_TickDuringTheWait :
    (waiting [⟨.tick, true⟩]).arq = .awaitingAck ∧ (waiting [⟨.tick, true⟩]).inbox = ⟨.tick, true⟩ :: [] ∧
    1 ≤ (waiting [⟨.tick, true⟩]).waitRem.toNat ∧ (waiting [⟨.tick, true⟩]).txFrame = .ok f2 ∧
    (deadline 2 [⟨.tick, false⟩]).waitRem = 1 ∧ (deadline 2 [⟨.tick, false⟩]).txFrame = .ok f2 ∧
    (deadline 2 [⟨.tick, false⟩]).attempts.toNat < (deadline 2 [⟨.tick, false⟩]).maxRetry.toNat ∧
    ¬ (deadline 3 [⟨.tick, true⟩]).attempts.toNat < (deadline 3 [⟨.tick, true⟩]).maxRetry.toNat := by decide +kernel

/-- For `CancelAbortsTheWait`, `CommandsDuringTheWaitDoNothing`, `MatchingAckResolvesTheSend` and
`EverythingElseDuringTheWaitIsDropped`. -/
theorem witness_during_the_wait :
    (waiting [⟨.cancel, true⟩]).arq = .awaitingAck ∧ (waiting [⟨.cancel, true⟩]).inbox = ⟨.cancel, true⟩ :: [] ∧
    (waiting [sendHi true]).arq = .awaitingAck ∧
    (waiting [sendHi true]).inbox = ⟨.cmd 0x04ABCD000200 [0x48, 0x69], true⟩ :: [] ∧
    (0x02 : Byte) ≠ (waiting []).outSeq ∧ Instr.wf (.frame 0xABCD 0x1234 1 [0x79, 0x6F]) = true ∧
    (waiting [⟨.rxBytes [], true⟩]).inbox = ⟨.rxBytes [], true⟩ :: [] ∧ decodeFrame [] = .error .malformedFrame := by
  decide +kernel

theorem witness_TickAndCancelInIdleDoNothing :
    (nodeA [⟨.tick, true⟩]).arq = .idle ∧ (nodeA [⟨.tick, true⟩]).inbox = ⟨.tick, true⟩ :: [] := by decide

/-- A run to rest from `Retrying`, the longest; the frame can be read in `Sending` and in `Retrying`. -/
theorem witness_RunToRestEndsAtRest :
    (nextOf (runToRest { waiting [] with arq := .retrying })).isSome = true ∧
    ({ waiting [] with arq := .retrying } : State).txFrame = .ok f2 ∧
    ({ waiting [] with arq := .sending } : State).txFrame = .ok f2 := by decide +kernel

/-- Node A during its wait meets the invariant. -/
theorem waiting_inv (i : List Input) : (waiting i).Inv where
  rests := .inr (by decide +kernel : (waiting []).arq = .awaitingAck)
  params_legal := (by decide +kernel : (waiting []).params.Legal)
  devid_eq := (by decide +kernel : (waiting []).devid = (waiting []).params.deviceId)
  timeout_pos := (by decide +kernel : 1 ≤ (waiting []).timeout.toNat)
  wait_bounds := fun _ =>
    (by decide +kernel : 1 ≤ (waiting []).waitRem.toNat ∧ (waiting []).waitRem.toNat ≤ (waiting []).timeout.toNat)
  attempts_le := fun _ => (by decide +kernel : (waiting []).attempts.toNat ≤ (waiting []).maxRetry.toNat)
  outstanding := fun _ =>
    ⟨⟨(by decide +kernel : 10 ≤ (waiting []).txLen.toNat), (by decide +kernel : (waiting []).txLen.toNat ≤ 265),
      f2, ⟨0x1234, 0xABCD, 1, [0x48, 0x69]⟩, (by decide +kernel : (waiting []).txFrame = .ok f2),
      (by decide +kernel : (waiting []).txLen.toNat = 10 + (byteAt f2 6).toNat), by decide,
      (by decide +kernel : byteAt f2 ((waiting []).txLen.toNat - 1) = 0x55), by decide +kernel⟩,
      (by decide +kernel : Memory.read (waiting []).txf 5 = some (waiting []).outSeq)⟩
  tx_frame := .inr
    ⟨(by decide +kernel : 10 ≤ (waiting []).txLen.toNat), (by decide +kernel : (waiting []).txLen.toNat ≤ 265),
      f2, ⟨0x1234, 0xABCD, 1, [0x48, 0x69]⟩, (by decide +kernel : (waiting []).txFrame = .ok f2),
      (by decide +kernel : (waiting []).txLen.toNat = 10 + (byteAt f2 6).toNat), by decide,
      (by decide +kernel : byteAt f2 ((waiting []).txLen.toNat - 1) = 0x55), by decide +kernel⟩
  result_codes := (by decide +kernel : (waiting []).resultErr ∈ _)
  rx_codes := (by decide +kernel : (waiting []).rxErr ∈ _)
  rx_valid := fun _ => (by decide +kernel : (waiting []).rxErr = .success)
  rx_ack := fun h => absurd h (by decide +kernel : ¬ (waiting []).rxAck = true)
  tx_live := fun k hk => by
    have h1 : (waiting []).txf = Memory.live f2 := by decide +kernel
    have h2 : 12 ≤ k := (by decide +kernel : (12 : Nat) = (waiting []).txLen.toNat) ▸ hk
    exact (congrArg (fun m => Memory.read m k) h1).trans
      ((Memory.read_live f2 k).trans (List.getElem?_eq_none (by simpa [f2] using h2)))
  rx_live := fun k _ => congrArg (fun m => Memory.read m k) (by decide +kernel : (waiting []).rxp = [])
  rx_payload := ⟨[], (by decide +kernel : (waiting []).rxPayload = .ok [])⟩
  txf_wf := (by decide +kernel : Memory.wf txfSize (waiting []).txf)
  rxp_wf := (by decide +kernel : Memory.wf rxpSize (waiting []).rxp)

/-- A tick of the wait, from a state with the invariant. -/
theorem witness_EveryTickOfTheWaitCounts :
    (waiting [⟨.tick, true⟩]).Inv ∧ (waiting [⟨.tick, true⟩]).arq = .awaitingAck ∧
    (waiting [⟨.tick, true⟩]).inbox = ⟨.tick, true⟩ :: [] ∧
    step (waiting [⟨.tick, true⟩]) = .next (after (waiting [⟨.tick, true⟩])) ∧ Event.tick ≠ .reset :=
  ⟨waiting_inv _, by decide +kernel, rfl, step_eq_after (by decide +kernel), by decide⟩

/-- The quiet inputs of a wait: a command, K2, a rejected buffer, and 7 ticks of the 8 that node A waits, so that the next
one is the last. Every draw is a failure, but for those of the 2nd, the 4th and the 6th tick, which transmit. -/
def quietInputs : List Input :=
  [sendHi false, ⟨.rxBytes k2, false⟩, ⟨.rxBytes [], false⟩, ⟨.tick, false⟩, ⟨.tick, true⟩, ⟨.tick, false⟩, ⟨.tick, true⟩,
    ⟨.tick, false⟩, ⟨.tick, true⟩, ⟨.tick, false⟩]

theorem quietInputs_quiet : ∀ i ∈ quietInputs, i.Quiet 1 := by
  intro i hi
  simp only [quietInputs, sendHi, List.mem_cons, List.not_mem_nil, or_false] at hi
  rcases hi with rfl | rfl | rfl | rfl | rfl | rfl | rfl | rfl | rfl | rfl
  · trivial
  · intro fr h _
    have hk : decodeFrame k2 = .ok ⟨0xABCD, 0x1234, 1, [0x06, 0x02]⟩ := by decide +kernel
    rw [hk] at h
    cases h
    decide
  · intro fr h _
    have hk : decodeFrame [] = .error .malformedFrame := by decide
    rw [hk] at h
    cases h
  all_goals trivial

theorem transmitsSucceed_of_take {d : Nat} {is : List Input}
    (h : ∀ k < is.length, ∀ i ∈ is[k]?, i.event = .tick → d ∣ ticksOf (is.take k) + 1 → i.txOk = true) :
    TransmitsSucceed d is := by
  rintro before i after rfl ht hd
  exact h before.length (by simp) i (by simp) ht (by simpa using hd)

theorem quietInputs_succeed : TransmitsSucceed 2 quietInputs := transmitsSucceed_of_take (by decide +kernel)

/-- Both clauses: 7 ticks are fewer than `(3 + 1) * 2`, and one more makes 8. -/
theorem witness_SendWithoutAckIsExhausted :
    let s := nodeA (sendHi true :: (quietInputs ++ ⟨.tick, false⟩ :: []))
    s.arq = .idle ∧ 1 ≤ s.timeout.toNat ∧ ([0x48, 0x69] : Bytes).length ≤ 255 ∧
    (∀ i ∈ quietInputs, i.Quiet (s.seq + 1)) ∧ TransmitsSucceed s.timeout.toNat quietInputs ∧
    s.inbox = ⟨Wire.event (encode (.send 0xABCD 0 [0x48, 0x69])), true⟩ :: (quietInputs ++ ⟨.tick, false⟩ :: []) ∧
    ticksOf quietInputs < (s.maxRetry.toNat + 1) * s.timeout.toNat ∧
    ticksOf quietInputs + 1 = (s.maxRetry.toNat + 1) * s.timeout.toNat :=
  ⟨by decide, by decide, by decide, quietInputs_quiet, quietInputs_succeed, by decide +kernel, by decide +kernel, by decide +kernel⟩

theorem witness_SendWithAckIsAcknowledged :
    let s := nodeA (sendHi true :: (quietInputs ++ ⟨.rxBytes k1, true⟩ :: []))
    s.arq = .idle ∧ 1 ≤ s.timeout.toNat ∧ ([0x48, 0x69] : Bytes).length ≤ 255 ∧
    (∀ i ∈ quietInputs, i.Quiet (s.seq + 1)) ∧ TransmitsSucceed s.timeout.toNat quietInputs ∧
    ticksOf quietInputs < (s.maxRetry.toNat + 1) * s.timeout.toNat ∧
    s.inbox = ⟨Wire.event (encode (.send 0xABCD 0 [0x48, 0x69])), true⟩ ::
      (quietInputs ++ ⟨Wire.event (encode (.frameAck 0xABCD 0x1234 1 (s.seq + 1))), true⟩ :: []) :=
  ⟨by decide, by decide, by decide, quietInputs_quiet, quietInputs_succeed, by decide +kernel, by decide +kernel⟩

/-- `AUTOACK` either way, and the largest payload; `Idle` alone is what `StrayAckIsDropped` needs. -/
theorem witness_DataFrameIsDeliveredAndAcknowledged :
    (nodeB []).arq = .idle ∧ (nodeB []).autoAck = true ∧ ({ nodeB [] with autoAck := false } : State).autoAck = false ∧
    Instr.wf (.frame 0x1234 0xABCD 1 (List.replicate 255 0)) = true := by
  decide +kernel

/-- In `Idle` and in `AwaitingAck`, with either code. -/
theorem witness_RejectedBuffersAreOnlyRecorded :
    (nodeA [⟨.rxBytes [], true⟩]).arq = .idle ∧ (nodeA [⟨.rxBytes [], true⟩]).inbox = ⟨.rxBytes [], true⟩ :: [] ∧
    decodeFrame [] = .error .malformedFrame ∧ (waiting []).arq = .awaitingAck ∧
    decodeFrame (f2.set 7 0x49) = .error .checksumMismatch := by decide +kernel

theorem witness_StepRunsTheDecodedInstruction :
    (nodeA [⟨Wire.event (.buffer f2), true⟩]).inbox = ⟨Wire.event (.buffer f2), true⟩ :: [] ∧
    decode (.buffer f2) = .ok (.frame 0x1234 0xABCD 1 [0x48, 0x69]) := by decide +kernel

/-- The reserved opcodes 0, 7 and 255. -/
theorem witness_ReservedOpcodesAreRefused :
    (nodeA [⟨.cmd 0x070000000000 [], true⟩]).arq = .idle ∧
    (nodeA [⟨.cmd 0x070000000000 [], true⟩]).inbox = ⟨.cmd 0x070000000000 [], true⟩ :: [] ∧
    (0x000000000000 : CommandWord).toNat / 2 ^ 40 = 0 ∧ 7 ≤ (0x070000000000 : CommandWord).toNat / 2 ^ 40 ∧
    7 ≤ (0xFF0000000000 : CommandWord).toNat / 2 ^ 40 := by decide +kernel

/-- One byte too few, with the opcodes 1 and 4. -/
theorem witness_WrongDataLengthIsAModelRefusal :
    (nodeA [⟨.cmd 0x010000000100 [], true⟩]).arq = .idle ∧
    (nodeA [⟨.cmd 0x010000000100 [], true⟩]).inbox = ⟨.cmd 0x010000000100 [], true⟩ :: [] ∧
    1 ≤ (0x010000000100 : CommandWord).toNat / 2 ^ 40 ∧ (0x040000000100 : CommandWord).toNat / 2 ^ 40 ≤ 4 ∧
    ([] : Bytes).length ≠ (0x010000000100 : CommandWord).toNat / 2 ^ 8 % 2 ^ 16 := by decide +kernel

theorem witness_ResetEventRestoresEveryRegister :
    (waiting [⟨.reset, true⟩]).inbox = ⟨.reset, true⟩ :: [] := rfl

theorem witness_StepKeepsTheInvariant :
    (waiting [⟨.tick, true⟩]).Inv ∧ step (waiting [⟨.tick, true⟩]) = .next (after (waiting [⟨.tick, true⟩])) :=
  ⟨waiting_inv _, step_eq_after (by decide +kernel)⟩

theorem witness_StepCompletesUnderTheInvariant :
    (waiting [⟨.cmd 0x04ABCD000200 [0x48, 0x69], true⟩]).Inv ∧
    ∀ i ∈ (waiting [⟨.cmd 0x04ABCD000200 [0x48, 0x69], true⟩]).inbox, i.event.Presentable := by
  refine ⟨waiting_inv _, fun i hi => ?_⟩
  have : i = ⟨.cmd 0x04ABCD000200 [0x48, 0x69], true⟩ := List.mem_singleton.mp hi
  subst this
  exact fun _ => by decide +kernel

/-- Node A at its deadline, where it transmits. -/
theorem witness_TransmitsAreTheFrameInTheBuffer :
    let s := { waiting [⟨.tick, true⟩] with waitRem := 1 }
    s.Inv ∧ step s = .next (after s) ∧ Output.transmit f2 ∈ (after s).out :=
  ⟨{ waiting_inv [⟨.tick, true⟩] with wait_bounds := fun _ => by decide +kernel },
    step_eq_after (by decide +kernel), by decide +kernel⟩

/-- One transmission for each clause: a SEND, an acknowledged data frame, a retry. -/
theorem witness_TransmitOnlyForSendRetryOrAck :
    ((nextOf (step (nodeA [sendHi true]))).isSome = true ∧ Output.transmit f2 ∈ (after (nodeA [sendHi true])).out) ∧
    ((nextOf (step (nodeB [⟨.rxBytes f2, true⟩]))).isSome = true ∧
      Output.transmit k1 ∈ (after (nodeB [⟨.rxBytes f2, true⟩])).out) ∧
    ((nextOf (step (deadline 2 [⟨.tick, true⟩]))).isSome = true ∧
      Output.transmit f2 ∈ (after (deadline 2 [⟨.tick, true⟩])).out) := by decide +kernel

/-- One step for each clause: a `Reset`, a decoded instruction in `Idle`, a reserved opcode, a tick, an event of the
wait. -/
theorem witness_SequenceAdvancesExactlyOnEncode :
    (nextOf (step (nodeA [⟨.reset, true⟩]))).isSome = true ∧
    (nextOf (step (nodeA [sendHi true]))).isSome = true ∧ (nodeA [sendHi true]).arq = .idle ∧
    decode (.command 0x04ABCD000200 [0x48, 0x69]) = .ok (.send 0xABCD 0 [0x48, 0x69]) ∧
    (nextOf (step (nodeA [⟨.cmd 0x070000000000 [], true⟩]))).isSome = true ∧
    decode (.command 0x070000000000 []) = .error (.reservedOpcode 7) ∧
    (nextOf (step (nodeA [⟨.tick, true⟩]))).isSome = true ∧
    (nextOf (step (waiting [⟨.rxBytes k1, true⟩]))).isSome = true ∧ (waiting []).arq = .awaitingAck := by decide +kernel

theorem witness_SuccessiveEncodesCountModulo256 :
    let cmds : List (DeviceId × BitVec 8 × Bytes × Bool) := [(2, 0, [], true), (2, 0xFF, [0x48, 0x69], false)]
    let s := { nodeA (cmds.map fun c => ⟨Wire.event (encode (.encode c.1 c.2.1 c.2.2.1)), c.2.2.2⟩) with seq := 255 }
    s.arq = .idle ∧ (∀ c ∈ cmds, c.2.2.1.length ≤ 255) ∧
    s.inbox = cmds.map (fun c => ⟨Wire.event (encode (.encode c.1 c.2.1 c.2.2.1)), c.2.2.2⟩) ++ [] := by decide +kernel

/-- A run with each kind of encode, the ACK with `SEQ` wrapping, a command that encodes nothing, and a `Reset` before it. -/
theorem witness_EveryEncodeTakesTheNextNumber :
    let run : List Input := [⟨.cmd 0x02ABCD000200 [0x48, 0x69], true⟩, ⟨.cmd 0x050300000000 [], true⟩, ⟨.rxBytes df1, false⟩,
      sendHi false]
    let s := { nodeA run with seq := 254 }
    (∀ i ∈ s.inbox.take 4, i.event ≠ .reset) ∧ s.encodesNext = true ∧ (nextOf (step s)).isSome = true ∧
    (runEncodes 4 s).map (fun r => (r.1.seq, r.2.map fun f => byteAt f 5)) = some (1, [255, 0, 1]) ∧
    (nextOf (step (nodeA (⟨.reset, true⟩ :: run)))).map (fun u => u.inbox) = some run ∧
    (runEncodes 4 (after (nodeA (⟨.reset, true⟩ :: run)))).isSome = true := by decide +kernel

/-- A WRREG that changes `MAXRETRY`. -/
theorem witness_OnlyWrregChangesTheConfiguration :
    let s := nodeA [⟨.cmd 0x0602000000FF [], true⟩]
    (nextOf (step s)).isSome = true ∧ Event.cmd 0x0602000000FF [] ≠ .reset ∧ (after s).maxRetry ≠ s.maxRetry := by
  decide +kernel

/-- A step that encodes nothing, and an event that is neither a buffer nor a DECODE. -/
theorem witness_BuffersHaveOneWriterEach :
    let s := nodeA [⟨.cmd 0x0602000000FF [], true⟩]
    (nextOf (step s)).isSome = true ∧ (after s).seq = s.seq ∧ CommandWord.op 0x0602000000FF ≠ 0x03 := by decide +kernel

/-- For each clause a case that meets it: the well-formed operands at both sides of 255 bytes and of `AUTOACK`, the states
in and out of `Idle`, a frame and no frame for DECODE. -/
theorem witness_BuffersHoldExactlyTheLastWrite :
    Instr.wf (.encode 0xABCD 0 (zeros 255)) = true ∧ Instr.wf (.send 0xABCD 0 (zeros 256)) = true ∧
    Instr.wf (.decode 0 0 f2) = true ∧ Instr.wf (.frame 0x1234 0xABCD 1 [0x48, 0x69]) = true ∧
    Instr.wf (.frameAck 0xABCD 0x1234 1 1) = true ∧
    (nodeB []).arq = .idle ∧ (nodeB []).autoAck = true ∧ ({ nodeB [] with autoAck := false } : State).autoAck = false ∧
    (waiting []).arq = .awaitingAck ∧ ({ waiting [] with arq := .sending } : State).arq = .sending ∧
    decodeFrame f2 = .ok ⟨0x1234, 0xABCD, 1, [0x48, 0x69]⟩ ∧ decodeFrame [] = .error .malformedFrame := by decide +kernel

/-- One step for each clause: a `Reset`; the wait ended and not ended; a command answered and one that waits; a buffer in
`Idle`. -/
theorem witness_EachCommandIsAnsweredOnce :
    (nextOf (step (nodeA [⟨.reset, true⟩]))).isSome = true ∧
    (after (waiting [⟨.rxBytes k1, true⟩])).arq = .idle ∧ (after (waiting [⟨.rxBytes k2, true⟩])).arq = .awaitingAck ∧
    (after (nodeA [⟨.cmd 0x050300000000 [], true⟩])).arq = .idle ∧ (after (nodeA [sendHi true])).arq = .awaitingAck ∧
    (after (nodeB [⟨.rxBytes f2, true⟩])).arq = .idle := by decide +kernel

/-- Two states in `Idle` that differ in the record of an attempt and of a decode, before a SEND; and two states of a wait
that differ in the record of a decode and above the live bytes, before the tick that retries. -/
theorem witness_ResolvedAttemptLeavesNoTrace :
    (let s := nodeA [sendHi true]
     let x := { s with outSeq := 9, attempts := 3, waitRem := 5, resultErr := .retriesExhausted, cancelled := true
                       ackTxFail := true, rxValid := true, rxLen := 1, rxp := [(0, 0x06)], txf := [(0, 0xAA)] }
     s ≠ x ∧ s.arq = .idle ∧ s.Alike x ∧ CommandWord.op 0x04ABCD000200 ≠ 0x05 ∧ (nextOf (step s)).isSome = true) ∧
    (let s := deadline 2 [⟨.tick, true⟩]
     let x := { s with rxValid := true, rxLen := 1, rxp := [(0, 0x06)], txf := s.txf ++ [(264, 0)] }
     s ≠ x ∧ s.arq = .awaitingAck ∧ s.Alike x ∧ (nextOf (step s)).isSome = true) := by
  refine ⟨⟨by decide +kernel, by decide, ⟨rfl, rfl, rfl, rfl, rfl, rfl, rfl, rfl, ?_⟩, by decide, by decide +kernel⟩,
    ⟨by decide +kernel, by decide +kernel, ⟨rfl, rfl, rfl, rfl, rfl, rfl, rfl, rfl, fun _ => ⟨rfl, rfl, rfl, ?_⟩⟩,
      by decide +kernel⟩⟩
  · exact fun h => absurd h (by decide)
  · decide +kernel

end Sys2Proof.Tests
end

section
/-! PROOF of the family 20_memory.md: what a step transmits is the frame that stands in `TXF` (R57). Every transmitted
frame is either the one `encode` has just built or the one the invariant says is outstanding. -/

/-! ## A built frame is read back (R106) -/

namespace Sys2Proof

/-- The length byte of a frame whose payload fits it (R66). -/
theorem toNat_lengthByte {p : Bytes} (h : p.length ≤ 255) : (BitVec.ofNat 8 p.length).toNat = p.length := by
  rw [BitVec.toNat_ofNat]; omega

/-- `decode` accepts a built frame: the five checks of R107 to R111 pass, and R112 reads the fields back. -/
theorem decodeFrame_buildFrame {fr : Frame} (h : fr.payload.length ≤ 255) :
    decodeFrame (buildFrame fr) = .ok fr := by
  have hn : (byteAt (buildFrame fr) 6).toNat = fr.payload.length := toNat_lengthByte h
  have hlong : ¬ (buildFrame fr).length < Config.frameMin := by simp [Config.frameMin]
  have hfooter : byteAt (buildFrame fr) ((buildFrame fr).length - 1) = Config.ftr := by
    rw [buildFrame_length, show 10 + fr.payload.length - 1 = 9 + fr.payload.length by omega,
      byteAt_buildFrame_footer]
  unfold decodeFrame
  rw [hn, if_neg hlong, if_neg (not_not.mpr (byteAt_buildFrame_header fr)), if_neg (not_not.mpr hfooter),
    if_neg (not_not.mpr (buildFrame_length fr)), if_neg (by simp)]
  simp

end Sys2Proof

namespace Sys2Proof.Machine

/-! ## Frames that may be transmitted -/

/-- `f` is what a `Transmit` in `s` has to hand over (R57): the bytes `TXF[0..TXLEN]`, of the size of a frame, and a
well-formed frame. -/
def State.Transmittable (s : State) (f : Bytes) : Prop :=
  s.txFrame = .ok f ∧ 10 ≤ f.length ∧ f.length ≤ 265 ∧ ∃ fr, decodeFrame f = .ok fr

/-- Only the transmit buffer and its length matter. -/
theorem State.Transmittable.congr {s t : State} {f : Bytes} (h : s.Transmittable f) (hb : t.txf = s.txf)
    (hl : t.txLen = s.txLen) : t.Transmittable f := by
  have hf : t.txFrame = s.txFrame := by rw [State.txFrame, State.txFrame, hb, hl]
  rwa [Transmittable, hf]

/-- `TXF[0..TXLEN]`, where it can be read, has `TXLEN` bytes. -/
theorem State.txFrame_length {s : State} {f : Bytes} (h : s.txFrame = .ok f) : f.length = s.txLen.toNat :=
  (Memory.fetchBytes_eq_ok.mp h).1

/-- The frame an `encode` answers may be transmitted from the state it leaves (R99). -/
theorem State.transmittable_of_encode {s u : State} {dst : DeviceId} {p f : Bytes}
    (h : s.encode dst p = some (f, u)) : u.Transmittable f := by
  obtain ⟨hp, rfl, -, -, -, hf, -⟩ := State.encode_eq_some h
  have hlen := buildFrame_length ⟨s.devid, dst, s.seq + 1, p⟩
  exact ⟨hf, by omega, by simp only at hlen; omega, _, decodeFrame_buildFrame hp⟩

/-- The frame of R33 (e) may be transmitted again. -/
theorem State.HoldsFrame.transmittable {s : State} {f : Bytes} (h : s.HoldsFrame) (hf : s.txFrame = .ok f) :
    s.Transmittable f := by
  obtain ⟨hmin, hmax, g, fr, hg, -, -, -, hd⟩ := h
  obtain rfl : g = f := Except.ok.inj (hg.symm.trans hf)
  have hlen := State.txFrame_length hf
  exact ⟨hf, by omega, by omega, fr, hd⟩

/-! ## What the outputs transmit -/

/-- Among the outputs of the state there is no `Transmit`, or exactly one, of the frame in `TXF`. -/
def State.TransmitsOwnFrame (s : State) : Prop :=
  s.out.filter Output.isTransmit = [] ∨
    ∃ f, s.out.filter Output.isTransmit = [.transmit f] ∧ s.Transmittable f

@[simp] theorem Output.isTransmit_transmit (b : Bytes) : (Output.transmit b).isTransmit = true := rfl
@[simp] theorem Output.isTransmit_rsp (err : ErrCode) (val : Value) (data : Bytes) :
    (Output.rsp err val data).isTransmit = false := rfl
@[simp] theorem Output.isTransmit_deliver (src dst : DeviceId) (seq : Byte) (payload : Bytes) :
    (Output.deliver src dst seq payload).isTransmit = false := rfl
@[simp] theorem Output.isTransmit_ackTxFail : Output.ackTxFail.isTransmit = false := rfl

/-- A write of a register emits nothing. -/
theorem State.writeReg_out {s u : State} {r : Reg} {v : Value} (h : s.writeReg r v = some u) : u.out = s.out := by
  cases r <;> simp only [State.writeReg, Option.ite_none_right_eq_some, Option.some.injEq, reduceCtorEq] at h
  case maxRetry => rw [← h.2]
  case timeout => rw [← h.2]
  case ctrl => rw [← h]

/-- An `encode` emits nothing. -/
theorem State.encode_out {s u : State} {dst : DeviceId} {p f : Bytes} (h : s.encode dst p = some (f, u)) :
    u.out = s.out := by
  obtain ⟨-, -, hu, -⟩ := State.encode_eq_some h
  rw [hu]

/-- An event handled with no output so far transmits the frame in `TXF` or nothing: a SEND and an acknowledgment the
frame they have built, a retry the outstanding one, and no other event anything. -/
theorem Transition.transmitsOwnFrame {e : Event} {s t : State} (h : Transition e s t) (ho : s.out = [])
    (hw : s.arq = .awaitingAck → s.HoldsFrame) : t.TransmitsOwnFrame := by
  cases h with
  | sendOk a low d f s u _ hu _ =>
    refine .inr ⟨f, ?_, (State.transmittable_of_encode hu).congr rfl rfl⟩
    simp [State.encode_out hu, ho, List.filter_cons]
  | sendFail a low d f s u _ hu _ =>
    refine .inr ⟨f, ?_, (State.transmittable_of_encode hu).congr rfl rfl⟩
    simp [State.encode_out hu, ho, List.filter_cons]
  | deliverAck b fr s u f _ _ _ _ hu =>
    refine .inr ⟨f, ?_, (State.transmittable_of_encode hu).congr rfl rfl⟩
    cases hok : s.txOk <;> simp [State.encode_out hu, ho, List.filter_cons]
  | retry s f hs _ _ hf =>
    have hframe := (hw hs).transmittable hf
    cases hok : s.txOk
    · exact .inr ⟨f, by simp [ho, List.filter_cons], hframe.congr rfl rfl⟩
    · exact .inr ⟨f, by simp [ho, List.filter_cons], hframe.congr rfl rfl⟩
  | encode a low d f s u _ hu => exact .inl (by simp [State.encode_out hu, ho])
  | wrreg w d r v s u _ _ hu => exact .inl (by simp [State.writeReg_out hu, ho])
  | reset | still | answer | decodeFrame | decodeReject | sendLong | reject | drop | deliver | acked | tickDown
  | exhausted | cancelled => exact .inl (by simp [ho])

/-- A step transmits the frame in `TXF` or nothing. -/
theorem step_transmitsOwnFrame {s t : State} (hs : s.Inv) (h : step s = .next t) : t.TransmitsOwnFrame := by
  obtain ⟨-, rfl⟩ | ⟨i, rest, -, htr⟩ := step_transition h
  · exact .inl rfl
  · exact htr.transmitsOwnFrame rfl fun ha => (hs.outstanding ha).1

/-- Settles O44, by the transitions of a step: each emits no `Transmit` or one of a frame it holds in `TXF`. -/
theorem transmitsAreTheFrameInTheBuffer : Obligations.TransmitsAreTheFrameInTheBuffer := by
  intro s t hs h
  have hmem {b : Bytes} (hb : .transmit b ∈ t.out) : .transmit b ∈ t.out.filter Output.isTransmit :=
    List.mem_filter.mpr ⟨hb, rfl⟩
  obtain hnone | ⟨f, hone, hf⟩ := step_transmitsOwnFrame hs h
  · rw [hnone] at hmem ⊢
    exact ⟨by simp, fun b hb => absurd (hmem hb) List.not_mem_nil⟩
  · rw [hone] at hmem ⊢
    refine ⟨by simp, fun b hb => ?_⟩
    obtain rfl : b = f := by simpa using hmem hb
    exact hf

end Sys2Proof.Machine
end

section
/-! PROOF of the family 40_integrity.md: what the CRC16 command answers (R90). -/

namespace Sys2Proof.Machine

/-- In `Idle` the CRC16 command answers the checksum as a 32-bit value, whatever `a` and the reserved byte are (R90). -/
theorem exec_crc16_of_idle {s : State} (h : s.arq = .idle) (a : BitVec 16) (reserved : BitVec 8) (data : Bytes) :
    exec (.crc16 a reserved data) s = .next (s.respond .success ((crc16 data).zeroExtend 32) []) :=
  calc exec (.crc16 a reserved data) s
      = s.whenIdle fun u => .next (u.respond .success ((crc16 data).zeroExtend 32) []) := rfl
    _ = .next (s.respond .success ((crc16 data).zeroExtend 32) []) := State.whenIdle_of_idle h _

/-- A response changes nothing but the outputs. -/
theorem State.respond_eq (s : State) (err : ErrCode) (val : Value) (data : Bytes) :
    s.respond err val data = { s with out := s.out ++ [.rsp err val data] } := rfl

/-- Settles O9: the command's only effect is its response, and zero extension keeps the checksum's number. -/
theorem crc16AnswersTheChecksum : Obligations.Crc16AnswersTheChecksum := by
  intro a low data s hidle
  rw [exec_crc16_of_idle hidle, State.respond_eq, BitVec.ofNat_toNat]

end Sys2Proof.Machine
end

section
/-! PROOF of the family 41_sequence.md: who advances `SEQ` (R95) and which number the `k`-th encode carries (R96). The
transitions of Laws/Transition.lean are sorted into those that encode and those that keep `SEQ`; a run is an induction over
its steps. -/

namespace Sys2Proof.Machine

/-! ## Which events encode (R95) -/

/-- Different presentations are different events. -/
theorem Wire.event_injective {w x : Wire} (h : Wire.event w = Wire.event x) : w = x := by
  cases w <;> cases x <;> cases h <;> rfl

/-- Handling `e` in `s` runs `encode` successfully: `e` presents, in `Idle`, an instruction that encodes. -/
def State.Encodes (s : State) (e : Event) : Prop :=
  s.arq = .idle ∧ ∃ w i, e = Wire.event w ∧ decode w = .ok i ∧ Instr.encodes s.autoAck i = true

/-- A presentation encodes exactly when it decodes, in `Idle`, to an instruction that does. -/
theorem State.encodes_event_iff {s : State} {w : Wire} :
    s.Encodes (Wire.event w) ↔ s.arq = .idle ∧ ∃ i, decode w = .ok i ∧ Instr.encodes s.autoAck i = true := by
  refine and_congr_right fun _ => ⟨?_, fun ⟨i, hi⟩ => ⟨w, i, rfl, hi⟩⟩
  rintro ⟨x, i, hx, hi⟩
  obtain rfl := Wire.event_injective hx
  exact ⟨i, hi⟩

/-- A tick, a cancel and a `Reset` present nothing. -/
theorem State.not_encodes_of_no_wire {s : State} {e : Event} (h : e = .tick ∨ e = .cancel ∨ e = .reset) :
    ¬ s.Encodes e := by
  rintro ⟨-, w, -, rfl, -⟩
  cases w <;> simp [Wire.event] at h

/-- The obligations' test of the next input is `State.Encodes` of its event. -/
theorem State.encodesNext_iff {s : State} {e : Event} {ok : Bool} {rest : List Input}
    (h : s.inbox = ⟨e, ok⟩ :: rest) : s.encodesNext = true ↔ s.Encodes e := by
  cases e with
  | cmd word data =>
    refine Iff.trans ?_ (State.encodes_event_iff (w := .command word data)).symm
    simp only [State.encodesNext, h, Bool.and_eq_true, decide_eq_true_eq]
    cases decode (.command word data) <;> simp
  | rxBytes b =>
    refine Iff.trans ?_ (State.encodes_event_iff (w := .buffer b)).symm
    simp only [State.encodesNext, h, Bool.and_eq_true, decide_eq_true_eq]
    cases decode (.buffer b) <;> simp
  | tick | cancel | reset => simp [State.encodesNext, h, State.not_encodes_of_no_wire]

/-- With no input nothing encodes. -/
theorem State.encodesNext_of_no_input {s : State} (h : s.inbox = []) : s.encodesNext = false := by
  simp only [State.encodesNext, h]

/-- A command that encodes is an ENCODE or a SEND of at most 255 bytes. -/
theorem State.Encodes.command {s : State} {w : CommandWord} {d : Bytes} (h : s.Encodes (.cmd w d)) :
    (CommandWord.op w = 0x02 ∨ CommandWord.op w = 0x04) ∧ d.length ≤ 255 := by
  obtain ⟨-, i, hd, hi⟩ := (State.encodes_event_iff (w := .command w d)).mp h
  simp only [Sys2Proof.decode, decodeCommand, decodeFormatB] at hd
  split_ifs at hd <;> cases hd <;> simp_all [Instr.encodes]

/-- A received frame encodes exactly when it is a data frame and `AUTOACK` is set. -/
theorem Frame.encodes_toInstr (autoAck : Bool) (fr : Frame) :
    Instr.encodes autoAck fr.toInstr = (!fr.isAck && autoAck) := by
  unfold Frame.toInstr
  cases fr.isAck <;> rfl

/-- A received buffer that encodes is a data frame, received with `AUTOACK` set. -/
theorem State.Encodes.buffer {s : State} {b : Bytes} (h : s.Encodes (.rxBytes b)) :
    ∃ fr, Sys2Proof.decodeFrame b = .ok fr ∧ fr.isAck = false ∧ s.autoAck = true := by
  obtain ⟨-, i, hd, hi⟩ := (State.encodes_event_iff (w := .buffer b)).mp h
  cases hf : Sys2Proof.decodeFrame b with
  | error e => simp [Sys2Proof.decode, hf] at hd
  | ok fr =>
    obtain rfl : fr.toInstr = i := by simpa [Sys2Proof.decode, hf] using hd
    exact ⟨fr, rfl, by simpa [Frame.encodes_toInstr] using hi⟩

/-- A Format B word built from its fields is read back (R72). -/
theorem decodeFormatB_of_fields (make : BitVec 16 → BitVec 8 → Bytes → Instr) (op : BitVec 8) (a : BitVec 16)
    (low : BitVec 8) {d : Bytes} (h : d.length < 2 ^ 16) :
    decodeFormatB make (op ++ a ++ BitVec.ofNat 16 d.length ++ low) d = .ok (make a low d) := by
  have hn : d.length = (BitVec.ofNat 16 d.length).toNat := by rw [BitVec.toNat_ofNat, Nat.mod_eq_of_lt h]
  rw [decodeFormatB, n_formatB, a_formatB, reserved_formatB, if_pos hn]

/-- The ENCODE of at most 255 bytes encodes in `Idle`. -/
theorem State.encodes_encode {s : State} (hs : s.arq = .idle) (a : BitVec 16) (low : BitVec 8) {d : Bytes}
    (h : d.length ≤ 255) : s.Encodes (Wire.event (Sys2Proof.encode (.encode a low d))) := by
  refine ⟨hs, _, .encode a low d, rfl, ?_, by simpa [Instr.encodes] using h⟩
  simp only [Sys2Proof.encode, formatB, Sys2Proof.decode, decodeCommand, op_formatB]
  exact decodeFormatB_of_fields .encode 0x02 a low (by omega)

/-- The SEND of at most 255 bytes encodes in `Idle`. -/
theorem State.encodes_send {s : State} (hs : s.arq = .idle) (a : BitVec 16) (low : BitVec 8) {d : Bytes}
    (h : d.length ≤ 255) : s.Encodes (Wire.event (Sys2Proof.encode (.send a low d))) := by
  refine ⟨hs, _, .send a low d, rfl, ?_, by simpa [Instr.encodes] using h⟩
  simp only [Sys2Proof.encode, formatB, Sys2Proof.decode, decodeCommand, op_formatB]
  exact decodeFormatB_of_fields .send 0x04 a low (by omega)

/-- A data frame encodes in `Idle` with `AUTOACK` set. -/
theorem State.encodes_dataFrame {s : State} (hs : s.arq = .idle) (ha : s.autoAck = true) {b : Bytes} {fr : Frame}
    (hd : Sys2Proof.decodeFrame b = .ok fr) (hk : fr.isAck = false) : s.Encodes (.rxBytes b) :=
  ⟨hs, .buffer b, fr.toInstr, rfl, by simp only [Sys2Proof.decode, hd], by simp [Frame.encodes_toInstr, hk, ha]⟩

/-! ## What an encode does to `SEQ` -/

/-- `t` comes from `s` by one encode: `SEQ` goes up by one, and the one frame handed out carries the new number. -/
def State.TakesNext (s t : State) : Prop :=
  t.seq = s.seq + 1 ∧ ∃ f, framesOf t.out = [f] ∧ byteAt f 5 = s.seq + 1

/-- The frame `encode` answers carries the number `SEQ` goes up to: where an event runs `encode` with the `SEQ` it found,
keeps the new one and hands out the frame, it takes the next number. -/
theorem State.takesNext_of_encode {s t u v : State} {dst : DeviceId} {p f : Bytes}
    (h : v.encode dst p = some (f, u)) (hv : v.seq = s.seq) (hseq : t.seq = u.seq) (hframe : framesOf t.out = [f]) :
    s.TakesNext t := by
  obtain ⟨-, rfl, hu, -⟩ := State.encode_eq_some h
  exact ⟨by rw [hseq, hu, hv], _, hframe, by rw [byteAt_buildFrame_seq, hv]⟩

/-- An `encode` takes no input. -/
theorem State.encode_inbox {s u : State} {dst : DeviceId} {p f : Bytes} (h : s.encode dst p = some (f, u)) :
    u.inbox = s.inbox := by
  obtain ⟨-, -, hu, -⟩ := State.encode_eq_some h
  rw [hu]

/-- A write of a register touches the configuration only. -/
theorem State.writeReg_eq {s u : State} {r : Reg} {v : Value} (h : s.writeReg r v = some u) :
    u = { s with maxRetry := u.maxRetry, timeout := u.timeout, autoAck := u.autoAck } := by
  cases r <;> simp only [State.writeReg, Option.ite_none_right_eq_some, Option.some.injEq, reduceCtorEq] at h
  case maxRetry => rw [← h.2]
  case timeout => rw [← h.2]
  case ctrl => rw [← h]

/-- R95: an event other than `Reset`, handled with no output so far, encodes and takes the next number, or does not
encode and leaves `SEQ`. -/
theorem Transition.encodes_or_keeps {e : Event} {s t : State} (h : Transition e s t) (he : e ≠ .reset)
    (ho : s.out = []) : (s.Encodes e ∧ s.TakesNext t) ∨ (¬ s.Encodes e ∧ t.seq = s.seq) := by
  have busy (ha : s.arq = .awaitingAck) : ¬ s.Encodes e := fun hx => by cases ha.symm.trans hx.1
  cases h with
  | encode a low d f s u hs hu =>
    obtain ⟨hlen, -⟩ := State.encode_eq_some hu
    exact .inl ⟨State.encodes_encode hs a low hlen,
      State.takesNext_of_encode hu rfl rfl (by simp [framesOf, State.encode_out hu, ho])⟩
  | sendOk a low d f s u hs hu _ =>
    obtain ⟨hlen, -⟩ := State.encode_eq_some hu
    exact .inl ⟨State.encodes_send hs a low hlen,
      State.takesNext_of_encode hu rfl rfl (by simp [framesOf, State.encode_out hu, ho])⟩
  | sendFail a low d f s u hs hu _ =>
    obtain ⟨hlen, -⟩ := State.encode_eq_some hu
    exact .inl ⟨State.encodes_send hs a low hlen,
      State.takesNext_of_encode hu rfl rfl (by simp [framesOf, State.encode_out hu, ho])⟩
  | deliverAck b fr s u f hs hd hk ha hu =>
    refine .inl ⟨State.encodes_dataFrame hs ha hd hk, State.takesNext_of_encode hu rfl rfl ?_⟩
    cases s.txOk <;> simp [framesOf, State.encode_out hu, ho]
  | reset => exact absurd rfl he
  | still e s _ hw =>
    refine .inr ⟨fun hx => ?_, rfl⟩
    obtain ⟨-, hw⟩ | ⟨ha, -⟩ | ⟨ha, -⟩ := hw
    · exact State.not_encodes_of_no_wire (by tauto) hx
    · exact busy ha hx
    · exact ha hx.1
  | answer w d s _ _ _ hl _ =>
    refine .inr ⟨fun hx => ?_, rfl⟩
    obtain ⟨hop, hlen⟩ := hx.command
    have := hl hop
    omega
  | decodeFrame w d fr s _ _ hop _ => exact .inr ⟨fun hx => by simpa [hop] using hx.command, rfl⟩
  | decodeReject w d e s _ hop _ => exact .inr ⟨fun hx => by simpa [hop] using hx.command, rfl⟩
  | wrreg w d r v s u _ hop hu =>
    have hseq : u.seq = s.seq := by rw [State.writeReg_eq hu]
    exact .inr ⟨fun hx => by simpa [hop] using hx.command, hseq⟩
  | sendLong w d s _ _ hl =>
    exact .inr ⟨fun hx => by obtain ⟨-, hlen⟩ := hx.command; omega, rfl⟩
  | reject b e s _ hd =>
    refine .inr ⟨fun hx => ?_, rfl⟩
    obtain ⟨fr, hf, -⟩ := hx.buffer
    cases hd.symm.trans hf
  | drop b fr s hd hk =>
    refine .inr ⟨fun hx => ?_, rfl⟩
    obtain ⟨-, hack⟩ | ⟨ha, -⟩ := hk
    · obtain ⟨g, hg, hdata, -⟩ := hx.buffer
      cases hd.symm.trans hg
      cases hack.symm.trans hdata
    · exact busy ha hx
  | deliver b fr s _ _ _ ha =>
    refine .inr ⟨fun hx => ?_, rfl⟩
    obtain ⟨-, -, -, hauto⟩ := hx.buffer
    cases ha.symm.trans hauto
  | retry s f ha _ _ _ => exact .inr ⟨busy ha, by split <;> rfl⟩
  | acked b fr s ha _ _ => exact .inr ⟨busy ha, rfl⟩
  | tickDown s ha _ | exhausted s ha _ _ | cancelled s ha => exact .inr ⟨busy ha, rfl⟩

/-- R95 for a step: unless it takes a `Reset`, it encodes and takes the next number, or keeps `SEQ`. -/
theorem step_encodes_or_keeps {s t : State} (h : step s = .next t) (hr : ∀ i ∈ s.inbox.head?, i.event ≠ .reset) :
    (s.encodesNext = true ∧ s.TakesNext t) ∨ (s.encodesNext = false ∧ t.seq = s.seq) := by
  obtain ⟨hnone, rfl⟩ | ⟨i, rest, hin, htr⟩ := step_transition h
  · exact .inr ⟨State.encodesNext_of_no_input hnone, rfl⟩
  · have hi : i.event ≠ .reset := hr i (by simp [hin])
    rw [← Bool.not_eq_true, State.encodesNext_iff hin]
    exact htr.encodes_or_keeps hi rfl

/-- The same as a value of `SEQ`, for the event at the head of the inbox. -/
theorem step_seq {s t : State} {e : Event} {ok : Bool} {rest : List Input} (hin : s.inbox = ⟨e, ok⟩ :: rest)
    (h : step s = .next t) (he : e ≠ .reset) :
    (s.Encodes e → t.seq = s.seq + 1) ∧ (¬ s.Encodes e → t.seq = s.seq) := by
  have hiff := State.encodesNext_iff hin
  obtain ⟨hx, hseq, -⟩ | ⟨hx, hseq⟩ := step_encodes_or_keeps h (by simpa [hin] using he)
  · exact ⟨fun _ => hseq, fun hn => absurd (hiff.mp hx) hn⟩
  · exact ⟨fun hp => by simp [hiff.mpr hp] at hx, fun _ => hseq⟩

/-- A `Reset` puts `SEQ` to 0 (R34) and leaves the inputs after it. -/
theorem step_reset {s t : State} {ok : Bool} {rest : List Input} (hin : s.inbox = ⟨.reset, ok⟩ :: rest)
    (h : step s = .next t) : t.seq = 0 ∧ t.inbox = rest := by
  rw [step_of_inbox hin] at h
  cases h
  exact ⟨rfl, rfl⟩

/-- The event of a presentation is no `Reset`. -/
theorem Wire.event_ne_reset (w : Wire) : Wire.event w ≠ .reset := by cases w <;> simp [Wire.event]

/-- Settles O46, by the two kinds of transition: those that encode and those that keep `SEQ`. -/
theorem sequenceAdvancesExactlyOnEncode : Obligations.SequenceAdvancesExactlyOnEncode := by
  intro s t e ok rest hin h
  have keeps (he : e ≠ .reset) (hn : ¬ s.Encodes e) : t.seq = s.seq := (step_seq hin h he).2 hn
  refine ⟨?_, ?_, ?_, ?_, fun ha he => keeps he fun hx => by cases ha.symm.trans hx.1⟩
  · rintro rfl
    exact (step_reset hin h).1
  · rintro w i rfl hd hs
    obtain ⟨hyes, hno⟩ := step_seq hin h (Wire.event_ne_reset w)
    have hiff : s.Encodes (Wire.event w) ↔ Instr.encodes s.autoAck i = true := by
      simp [State.encodes_event_iff, hd, hs]
    rw [hiff] at hyes hno
    cases i with
    | encode a low d | send a low d =>
      simp only [Instr.encodes, decide_eq_true_eq] at hyes hno
      dsimp only
      split
      · exact hyes ‹_›
      · exact hno ‹_›
    | frame src dst q p =>
      simp only [Instr.encodes] at hyes hno
      dsimp only
      split
      · exact hyes ‹_›
      · exact hno ‹_›
    | crc16 | decode | rdreg | wrreg | frameAck => exact hno Bool.false_ne_true
  · rintro w x rfl hd
    refine keeps (Wire.event_ne_reset w) ?_
    simp [State.encodes_event_iff, hd]
  · intro he
    exact keeps (by rintro rfl; simp at he) (State.not_encodes_of_no_wire (by tauto))

/-! ## The numbers of a run (R96) -/

/-- Handling an event does not touch the inputs to come. -/
theorem Transition.inbox_eq {e : Event} {s t : State} (h : Transition e s t) : t.inbox = s.inbox := by
  cases h with
  | encode a low d f s u _ hu => exact (State.encode_inbox hu :)
  | sendOk a low d f s u _ hu _ => exact (State.encode_inbox hu :)
  | sendFail a low d f s u _ hu _ => exact (State.encode_inbox hu :)
  | deliverAck b fr s u f _ _ _ _ hu => exact (State.encode_inbox hu :)
  | wrreg w d r v s u _ _ hu =>
    have hin : u.inbox = s.inbox := by rw [State.writeReg_eq hu]
    exact hin
  | retry s f _ _ _ _ => split <;> rfl
  | reset | still | answer | decodeFrame | decodeReject | sendLong | reject | drop | deliver | acked | tickDown
  | exhausted | cancelled => rfl

/-- A step takes the first input and leaves the others. -/
theorem step_inbox {s t : State} (h : step s = .next t) : t.inbox = s.inbox.tail := by
  obtain ⟨hnone, rfl⟩ | ⟨i, rest, hin, htr⟩ := step_transition h
  · simp [State.rest, hnone]
  · simp [htr.inbox_eq, hin]

/-- The frames carry the numbers after `q`, in order: the one at index `k` carries `q + (k + 1)`, modulo 256. -/
def NumberedFrom (q : Byte) (fs : List Bytes) : Prop :=
  ∀ k f, fs[k]? = some f → byteAt f 5 = q + BitVec.ofNat 8 (k + 1)

/-- One frame more at the front starts the count one lower. -/
theorem NumberedFrom.cons {q : Byte} {f : Bytes} {fs : List Bytes} (hf : byteAt f 5 = q + 1)
    (h : NumberedFrom (q + 1) fs) : NumberedFrom q (f :: fs) := by
  rintro (_ | k) g hg
  · obtain rfl : f = g := by simpa using hg
    exact hf
  · rw [h k g (by simpa using hg)]
    bv_omega

/-- The number at index `k`, as a natural number. -/
theorem NumberedFrom.toNat_eq {q : Byte} {fs : List Bytes} (h : NumberedFrom q fs) {k : Nat} {f : Bytes}
    (hf : fs[k]? = some f) : (byteAt f 5).toNat = (q.toNat + (k + 1)) % 256 := by
  rw [h k f hf, BitVec.toNat_add, BitVec.toNat_ofNat, Nat.add_mod_mod]

/-- The numbers repeat after 256 frames. -/
theorem NumberedFrom.period {q : Byte} {fs : List Bytes} (h : NumberedFrom q fs) {k : Nat} {f g : Bytes}
    (hf : fs[k]? = some f) (hg : fs[k + 256]? = some g) : byteAt g 5 = byteAt f 5 := by
  apply BitVec.eq_of_toNat_eq
  rw [h.toNat_eq hf, h.toNat_eq hg]
  omega

/-- A run of one step and `n` more: its parts. -/
theorem runEncodes_succ {n : Nat} {s t : State} {fs : List Bytes} (h : runEncodes (n + 1) s = some (t, fs)) :
    ∃ u gs, step s = .next u ∧ runEncodes n u = some (t, gs) ∧
      fs = (if s.encodesNext then framesOf u.out else []) ++ gs := by
  rw [runEncodes] at h
  split at h
  · rename_i u hu
    obtain ⟨⟨v, gs⟩, hrun, heq⟩ := Option.map_eq_some_iff.mp h
    cases heq
    exact ⟨u, gs, hu, hrun, rfl⟩
  · cases h
  · cases h

/-- Over a run without a `Reset` the encodes are numbered on from `SEQ`, and `SEQ` goes up by their number. -/
theorem runEncodes_numbered {n : Nat} {s t : State} {fs : List Bytes} (h : runEncodes n s = some (t, fs))
    (hr : ∀ i ∈ s.inbox.take n, i.event ≠ .reset) :
    t.seq = s.seq + BitVec.ofNat 8 fs.length ∧ NumberedFrom s.seq fs := by
  induction n generalizing s fs with
  | zero =>
    cases h
    exact ⟨by simp, by rintro k f hf; simp at hf⟩
  | succ n ih =>
    obtain ⟨u, gs, hstep, hrun, rfl⟩ := runEncodes_succ h
    have hhead : ∀ i ∈ s.inbox.head?, i.event ≠ .reset := by
      cases hin : s.inbox <;> simp_all
    have htail : ∀ i ∈ u.inbox.take n, i.event ≠ .reset := by
      rw [step_inbox hstep]
      cases hin : s.inbox <;> simp_all
    obtain ⟨hseq, hnum⟩ := ih hrun htail
    obtain ⟨hx, hnext, f, hframe, hf⟩ | ⟨hx, hkeep⟩ := step_encodes_or_keeps hstep hhead
    · rw [if_pos hx, hframe]
      rw [hnext] at hseq hnum
      refine ⟨?_, hnum.cons hf⟩
      rw [hseq, List.singleton_append, List.length_cons]
      bv_omega
    · rw [hx]
      rw [hkeep] at hseq hnum
      exact ⟨hseq, hnum⟩

/-- A step that encodes takes no `Reset`. -/
theorem State.encodesNext_head {s : State} (h : s.encodesNext = true) : ∀ i ∈ s.inbox.head?, i.event ≠ .reset := by
  rintro ⟨e, ok⟩ hi hreset
  obtain ⟨rest, hin⟩ := List.head?_eq_some_iff.mp hi
  obtain ⟨-, w, -, hw, -⟩ := (State.encodesNext_iff hin).mp h
  exact Wire.event_ne_reset w (hw.symm.trans hreset)

/-- Settles O53: the numbering of a run, from any `SEQ`, and from the 0 a `Reset` leaves. -/
theorem everyEncodeTakesTheNextNumber : Obligations.EveryEncodeTakesTheNextNumber := by
  refine ⟨fun s t h hx => ?_, fun n s t fs hrun hr => ?_, fun n s₀ s t fs ok rest hin h hrun hr k f hf => ?_⟩
  · obtain ⟨-, -, f, hf, -⟩ | ⟨hn, -⟩ := step_encodes_or_keeps h (State.encodesNext_head hx)
    · exact ⟨f, hf⟩
    · cases hn.symm.trans hx
  · obtain ⟨hseq, hnum⟩ := runEncodes_numbered hrun hr
    refine ⟨?_, fun k f hf => hnum.toNat_eq hf, fun k f g hf hg => hnum.period hf hg⟩
    rw [hseq, BitVec.toNat_add, BitVec.toNat_ofNat, Nat.add_mod_mod]
  · obtain ⟨hzero, hinbox⟩ := step_reset hin h
    obtain ⟨-, hnum⟩ := runEncodes_numbered hrun (by rwa [hinbox])
    rw [hnum.toNat_eq hf, hzero]
    simp

end Sys2Proof.Machine
end

section
/-! PROOF of the family 42_codec.md: what `encode` builds (R99 to R103), what `decode` rejects and why (R107 to R111,
R118), and what the ENCODE and DECODE commands answer (R104, R114). The four checks of `decode` before the checksum are one
predicate, `HasLayout`; a damaged frame either loses it or keeps it and fails the checksum. -/

namespace Sys2Proof

/-! ## One byte of a byte string -/

/-- Inside the string, `b[i]` is the byte at `i`. -/
theorem getElem?_eq_some_byteAt {b : Bytes} {i : Nat} (h : i < b.length) : b[i]? = some (byteAt b i) := by
  simp [byteAt, List.getD_eq_getElem?_getD, h]

@[simp] theorem byteAt_set_self {b : Bytes} {i : Nat} (h : i < b.length) (y : Byte) : byteAt (b.set i y) i = y := by
  simp [byteAt, List.getD_eq_getElem?_getD, h]

theorem byteAt_set_of_ne (b : Bytes) {i k : Nat} (h : i ≠ k) (y : Byte) : byteAt (b.set i y) k = byteAt b k := by
  simp [byteAt, List.getD_eq_getElem?_getD, List.getElem?_set_ne h]

/-- The bytes of a truncated string are the bytes of the string. -/
theorem byteAt_take {b : Bytes} {i k : Nat} (h : i < k) : byteAt (b.take k) i = byteAt b i := by
  simp [byteAt, List.getD_eq_getElem?_getD, List.getElem?_take_of_lt h]

/-- The bytes of a string are the bytes of its extension. -/
theorem byteAt_append {b : Bytes} {i : Nat} (h : i < b.length) (b' : Bytes) : byteAt (b ++ b') i = byteAt b i :=
  List.getD_append b b' 0 i h

/-- The bytes of a slice are the bytes of the string. -/
theorem byteAt_slice {b : Bytes} {m n k : Nat} (h : m + k < n) : byteAt (slice b m n) k = byteAt b (m + k) := by
  rw [slice, byteAt_take (by omega)]
  simp [byteAt, List.getD_eq_getElem?_getD]

/-- A byte outside a slice can be changed without changing the slice. -/
theorem slice_set_of_le (b : Bytes) {i m n : Nat} (h : n ≤ i) (hm : m ≤ n) (y : Byte) :
    slice (b.set i y) m n = slice b m n := by
  rw [slice, slice, List.drop_set, if_neg (by omega), List.take_set_of_le (by omega)]

/-- Changing a byte inside a slice changes that byte of the slice. -/
theorem slice_set_of_mem (b : Bytes) {i m n : Nat} (h : m ≤ i) (y : Byte) :
    slice (b.set i y) m n = (slice b m n).set (i - m) y := by
  rw [slice, slice, List.drop_set, if_neg (by omega), List.take_set]

/-- A flipped bit changes its byte. -/
theorem xor_twoPow_ne (x : Byte) {j : Nat} (h : j < 8) : x ^^^ BitVec.twoPow 8 j ≠ x := by
  intro he
  have hbit := congrArg (BitVec.getLsbD · j) he
  simp [h] at hbit

/-- The checksum detects a change of any one byte (R91). -/
theorem crc16_set_ne {b : Bytes} {i : Nat} (h : i < b.length) {y : Byte} (hy : y ≠ byteAt b i) :
    crc16 (b.set i y) ≠ crc16 b := by
  have hb : b = b.take i ++ byteAt b i :: b.drop (i + 1) := by
    have hi : byteAt b i = b[i] := List.getD_eq_getElem b 0 h
    rw [hi, List.getElem_cons_drop, List.take_append_drop]
  have hne := crc16_ne_of_one_byte (b.take i) (b.drop (i + 1)) hy
  rwa [← hb, ← (List.set_eq_take_append_cons_drop (a := y)).trans (if_pos h)] at hne

/-! ## The four layout checks of `decode` (R107 to R110) and the checksum (R111) -/

/-- The buffer has the byte layout of a frame: the checks of R107 to R110. -/
structure HasLayout (raw : Bytes) : Prop where
  long : 10 ≤ raw.length
  header : byteAt raw 0 = Config.hdr
  footer : byteAt raw (raw.length - 1) = Config.ftr
  length_eq : raw.length = 10 + (byteAt raw 6).toNat

/-- Without the layout a buffer is malformed, whatever its checksum is: to reach the checksum it passes all four
checks. -/
theorem decodeFrame_of_not_layout {raw : Bytes} (h : ¬ HasLayout raw) : decodeFrame raw = .error .malformedFrame := by
  unfold decodeFrame
  split_ifs with hlong hheader hfooter hlength
  any_goals rfl
  all_goals exact absurd ⟨not_lt.mp hlong, not_not.mp hheader, not_not.mp hfooter, not_not.mp hlength⟩ h

/-- With the layout, a wrong checksum is what is reported. -/
theorem decodeFrame_of_checksum_ne {raw : Bytes} (h : HasLayout raw)
    (hc : crc16 (slice raw 1 (7 + (byteAt raw 6).toNat)) ≠
      be16 (byteAt raw (7 + (byteAt raw 6).toNat)) (byteAt raw (8 + (byteAt raw 6).toNat))) :
    decodeFrame raw = .error .checksumMismatch := by
  have hlong : ¬ raw.length < Config.frameMin := not_lt.mpr h.long
  unfold decodeFrame
  rw [if_neg hlong, if_neg (not_not.mpr h.header), if_neg (not_not.mpr h.footer),
    if_neg (not_not.mpr h.length_eq), if_pos hc]

/-- The payload of a decoded frame fits the length byte it was read with (R112). -/
theorem decodeFrame_payload_length {raw : Bytes} {fr : Frame} (h : decodeFrame raw = .ok fr) :
    fr.payload.length ≤ 255 := by
  unfold decodeFrame at h
  split_ifs at h
  cases h
  have hbyte := (byteAt raw 6).isLt
  simp only [slice, List.length_take]
  omega

/-- A buffer that does not start with the header is malformed (R108). -/
theorem decodeFrame_of_no_header {raw : Bytes} (h : raw[0]? ≠ some 0xAA) :
    decodeFrame raw = .error .malformedFrame :=
  decodeFrame_of_not_layout fun hl => h <| by
    have hlong := hl.long
    rw [getElem?_eq_some_byteAt (by omega), hl.header, Config.hdr]

/-- A buffer that does not end with the footer is malformed (R109). -/
theorem decodeFrame_of_no_footer {raw : Bytes} (h : raw[raw.length - 1]? ≠ some 0x55) :
    decodeFrame raw = .error .malformedFrame :=
  decodeFrame_of_not_layout fun hl => h <| by
    have hlong := hl.long
    rw [getElem?_eq_some_byteAt (by omega), hl.footer, Config.ftr]

/-- Settles O13: four rejections for want of the layout, and the fifth with it. -/
theorem decodeRejectionCodes : Obligations.DecodeRejectionCodes := by
  intro raw
  refine ⟨fun h => decodeFrame_of_not_layout fun hl => absurd hl.long (by omega), decodeFrame_of_no_header,
    decodeFrame_of_no_footer, fun h => decodeFrame_of_not_layout fun hl => h hl.length_eq,
    fun hlong hheader hfooter hlength hcrc => ?_⟩
  rw [getElem?_eq_some_byteAt (by omega), Option.some.injEq] at hheader hfooter
  refine decodeFrame_of_checksum_ne ⟨hlong, hheader, hfooter, hlength⟩ fun he => hcrc ?_
  rw [he, be16_toNat]

/-! ## Damaged frames (R118) -/

section damage
variable {fr : Frame} (h : fr.payload.length ≤ 255)
include h

/-- The length byte of a built frame says how long the payload is. -/
theorem toNat_byteAt_buildFrame_len : (byteAt (buildFrame fr) 6).toNat = fr.payload.length := toNat_lengthByte h

/-- A buffer with the length byte of a built frame and another length is malformed (R110). -/
theorem decodeFrame_of_other_length {raw : Bytes} (hlen : 10 ≤ raw.length → byteAt raw 6 = byteAt (buildFrame fr) 6)
    (hne : raw.length ≠ (buildFrame fr).length) : decodeFrame raw = .error .malformedFrame :=
  decodeFrame_of_not_layout fun hl => hne <| by
    rw [hl.length_eq, hlen hl.long, toNat_byteAt_buildFrame_len h, buildFrame_length]

/-- Truncation: a built frame cut short is malformed. -/
theorem decodeFrame_take_buildFrame {k : Nat} (hk : k < (buildFrame fr).length) :
    decodeFrame ((buildFrame fr).take k) = .error .malformedFrame := by
  have hlen : ((buildFrame fr).take k).length = k := List.length_take_of_le hk.le
  exact decodeFrame_of_other_length h (fun hlong => byteAt_take (by omega)) (by omega)

/-- Extension: a built frame with bytes after it is malformed. -/
theorem decodeFrame_buildFrame_append {extra : Bytes} (he : extra ≠ []) :
    decodeFrame (buildFrame fr ++ extra) = .error .malformedFrame := by
  have hextra := List.length_pos_iff.mpr he
  have hframe := buildFrame_length fr
  exact decodeFrame_of_other_length h (fun _ => byteAt_append (by omega) extra) (by simp; omega)

/-- A change of a byte the layout checks do not read keeps the layout. -/
theorem hasLayout_set_buildFrame {i : Nat} (h0 : i ≠ 0) (h6 : i ≠ 6) (hlast : i + 1 ≠ (buildFrame fr).length)
    (y : Byte) : HasLayout ((buildFrame fr).set i y) := by
  have hframe := buildFrame_length fr
  refine ⟨by simp, byteAt_set_of_ne _ h0 y, ?_, ?_⟩
  · rw [List.length_set, byteAt_set_of_ne _ (by omega), hframe,
      show 10 + fr.payload.length - 1 = 9 + fr.payload.length by omega]
    exact byteAt_buildFrame_footer fr
  · rw [List.length_set, byteAt_set_of_ne _ h6, toNat_byteAt_buildFrame_len h, hframe]

/-- A change of one covered byte or one checksum byte, the length byte apart, is a wrong checksum: of the covered bytes
and the embedded value exactly one has changed (R91, R111). -/
theorem decodeFrame_set_covered {i : Nat} (h0 : i ≠ 0) (h6 : i ≠ 6) (hlast : i + 1 < (buildFrame fr).length)
    {y : Byte} (hy : y ≠ byteAt (buildFrame fr) i) :
    decodeFrame ((buildFrame fr).set i y) = .error .checksumMismatch := by
  have hframe := buildFrame_length fr
  refine decodeFrame_of_checksum_ne (hasLayout_set_buildFrame h h0 h6 (by omega) y) ?_
  rw [byteAt_set_of_ne _ h6, toNat_byteAt_buildFrame_len h]
  by_cases hcov : i < 7 + fr.payload.length
  case pos =>
    rw [byteAt_set_of_ne _ (by omega), byteAt_set_of_ne _ (by omega), byteAt_buildFrame_crc_hi,
      byteAt_buildFrame_crc_lo, be16_hiByte_loByte, slice_set_of_mem _ (by omega), slice_buildFrame_body]
    refine crc16_set_ne (by rw [frameBody_length]; omega) ?_
    rwa [← slice_buildFrame_body, byteAt_slice (by omega), show 1 + (i - 1) = i by omega]
  case neg =>
    rw [slice_set_of_le _ (by omega) (by omega), slice_buildFrame_body]
    intro he
    obtain rfl | rfl : i = 7 + fr.payload.length ∨ i = 8 + fr.payload.length := by omega
    · have hhi := congrArg hiByte he
      rw [hiByte_be16, byteAt_set_self (by omega)] at hhi
      exact hy (by rw [byteAt_buildFrame_crc_hi, hhi])
    · have hlo := congrArg loByte he
      rw [loByte_be16, byteAt_set_self (by omega)] at hlo
      exact hy (by rw [byteAt_buildFrame_crc_lo, hlo])

/-- Corruption: a built frame with one byte changed is rejected, with the code of the check that reads the byte. -/
theorem decodeFrame_set_buildFrame {i : Nat} (hi : i < (buildFrame fr).length) {y : Byte}
    (hy : y ≠ byteAt (buildFrame fr) i) :
    decodeFrame ((buildFrame fr).set i y) =
      .error (if i = 0 ∨ i = 6 ∨ i + 1 = (buildFrame fr).length then .malformedFrame else .checksumMismatch) := by
  have hset := byteAt_set_self hi y
  split_ifs with hread
  · refine decodeFrame_of_not_layout fun hl => hy ?_
    obtain rfl | rfl | hlast := hread
    · exact hset.symm.trans hl.header
    · have hlen := hl.length_eq
      rw [List.length_set, hset, buildFrame_length] at hlen
      exact BitVec.eq_of_toNat_eq (by rw [toNat_byteAt_buildFrame_len h]; omega)
    · have hfooter := hl.footer
      rw [List.length_set, show (buildFrame fr).length - 1 = i by omega, hset] at hfooter
      rw [hfooter, show i = 9 + fr.payload.length by rw [buildFrame_length] at hlast; omega,
        byteAt_buildFrame_footer]
  · exact decodeFrame_set_covered h (by omega) (by omega) (by omega) hy

end damage

/-- Settles O14: truncation and extension fail the length check; a flipped bit is a changed byte; the last byte of a
buffer is its byte at `length - 1`. -/
theorem damagedFramesAreRejected : Obligations.DamagedFramesAreRejected := by
  refine ⟨fun fr h => ⟨fun k => decodeFrame_take_buildFrame h, fun extra => decodeFrame_buildFrame_append h,
    fun i j hi hj => decodeFrame_set_buildFrame h hi (xor_twoPow_ne _ hj)⟩, fun raw h => ?_⟩
  rw [List.getLast?_eq_getElem?] at h
  exact decodeFrame_of_no_footer h

end Sys2Proof

namespace Sys2Proof.Machine

/-! ## What `encode` builds (R99 to R103) -/

/-- Settles O10: the bytes of the frame that `encode` builds, the covered bytes being its body. -/
theorem encodedFrameLayout : Obligations.EncodedFrameLayout := by
  intro s dst p hp
  obtain ⟨t, ht, -⟩ := s.encode_spec dst hp
  let fr : Frame := ⟨s.devid, dst, s.seq + 1, p⟩
  refine ⟨buildFrame fr, t, ht, buildFrame_length fr, rfl, hiByte_toNat _, loByte_toNat _, hiByte_toNat _,
    loByte_toNat _, BitVec.toNat_add _ _, toNat_lengthByte hp, fun i => byteAt_buildFrame_payload fr, ?_, ?_,
    byteAt_buildFrame_footer fr⟩
  · rw [slice_buildFrame_body fr, byteAt_buildFrame_crc_hi fr, hiByte_toNat]
  · rw [slice_buildFrame_body fr, byteAt_buildFrame_crc_lo fr, loByte_toNat]

/-- Settles O11: `encode` answers a built frame, and `decode` reads a built frame back. -/
theorem encodedFrameDecodesBack : Obligations.EncodedFrameDecodesBack := by
  intro s dst p hp
  obtain ⟨t, ht, heq, -⟩ := s.encode_spec dst hp
  have hseq : t.seq = s.seq + 1 := by rw [heq]
  exact ⟨_, t, ht, by rw [hseq]; exact decodeFrame_buildFrame hp, hseq⟩

/-! ## The ENCODE command (R104) -/

/-- In `Idle`, a payload that `encode` does not take is answered with code 1. -/
theorem exec_encode_of_long {s : State} (h : s.arq = .idle) (a : BitVec 16) (reserved : BitVec 8) {data : Bytes}
    (hd : 255 < data.length) :
    exec (.encode a reserved data) s = .next { s with out := s.out ++ [.rsp .payloadTooLarge 0 []] } := by
  show execEncode a reserved data s = _
  rw [execEncode, State.whenIdle_of_idle h, State.encode_eq_none.mpr hd]
  rfl

/-- In `Idle`, the frame that `encode` builds is answered with its length. -/
theorem exec_encode_of_some {s u : State} (h : s.arq = .idle) (a : BitVec 16) (reserved : BitVec 8) {data f : Bytes}
    (hu : s.encode a data = some (f, u)) :
    exec (.encode a reserved data) s = .next (u.respond .success (BitVec.ofNat 32 (10 + data.length)) f) := by
  obtain ⟨-, -, -, -, hlen, -⟩ := State.encode_eq_some hu
  show execEncode a reserved data s = _
  rw [execEncode, State.whenIdle_of_idle h, hu, ← hlen, BitVec.ofNat_toNat]

/-- Settles O15: the command answers what `encode` builds, and keeps what `encode` wrote. -/
theorem encodeAnswersTheFrame : Obligations.EncodeAnswersTheFrame := by
  intro a low data s hidle
  refine ⟨fun hd => ?_, exec_encode_of_long hidle a low⟩
  obtain ⟨u, hu, heq, -, -, hframe, -⟩ := s.encode_spec a hd
  refine ⟨_, exec_encode_of_some hidle a low hu, ?_, hframe⟩
  rw [State.respond_eq]
  conv_lhs => rw [heq]

/-- Settles O16: `encode` checks the size first, and the frame of the empty payload is the shortest. -/
theorem encodeFailsExactlyOnLongPayloads : Obligations.EncodeFailsExactlyOnLongPayloads := by
  refine ⟨fun s dst p => State.encode_eq_none, fun a low data s hidle => exec_encode_of_long hidle a low,
    fun s dst => ?_⟩
  obtain ⟨t, ht, -⟩ := s.encode_spec dst (p := []) (by simp)
  exact ⟨_, t, ht, buildFrame_length _⟩

/-! ## The DECODE command (R114, R115) -/

/-- Two 16-bit values, one shifted above the other, are the 32-bit value they make up (R114). -/
theorem shiftLeft_add_eq_append (x y : BitVec 16) :
    (x.zeroExtend 32 <<< 16) + y.zeroExtend 32 = (x ++ y : BitVec 32) := by
  have hx := x.isLt
  have hy := y.isLt
  apply BitVec.eq_of_toNat_eq
  rw [BitVec.toNat_append, ← Nat.shiftLeft_add_eq_or_of_lt hy]
  simp only [BitVec.toNat_add, BitVec.toNat_shiftLeft, BitVec.toNat_setWidth, BitVec.zeroExtend, Nat.shiftLeft_eq]
  omega

/-- `is_ack` by the bytes of the payload (R70). -/
theorem Frame.isAck_eq (fr : Frame) :
    fr.isAck = decide (fr.payload.length = 2 ∧ byteAt fr.payload 0 = 0x06) := by
  refine decide_eq_decide.mpr (and_congr_right fun hlen => ?_)
  rw [getElem?_eq_some_byteAt (by omega), Option.some.injEq]
  rfl

/-- In `Idle`, a frame is recorded and answered. -/
theorem exec_decode_of_frame {s : State} (h : s.arq = .idle) (a : BitVec 16) (reserved : BitVec 8) {data : Bytes}
    {fr : Frame} (hd : decodeFrame data = .ok fr) :
    exec (.decode a reserved data) s = .next ((s.recordFrame fr).respond .success (fr.src ++ fr.dst) fr.payload) := by
  show execDecode a reserved data s = _
  rw [execDecode, State.whenIdle_of_idle h, hd, ← shiftLeft_add_eq_append]

/-- In `Idle`, the code of a rejected buffer is recorded and answered. -/
theorem exec_decode_of_no_frame {s : State} (h : s.arq = .idle) (a : BitVec 16) (reserved : BitVec 8) {data : Bytes}
    {e : DecodeError} (hd : decodeFrame data = .error e) :
    exec (.decode a reserved data) s = .next ((s.recordReject e).respond (rejectCode e) 0 []) := by
  show execDecode a reserved data s = _
  rw [execDecode, State.whenIdle_of_idle h, hd]

/-- Code 3 is a wrong checksum, and any other rejection has code 2 (R106). -/
theorem rejectCode_cases (e : DecodeError) :
    (rejectCode e = .malformedFrame ∨ rejectCode e = .checksumMismatch) ∧
      (rejectCode e = .checksumMismatch ↔ e = .checksumMismatch) := by
  cases e <;> simp [rejectCode]

/-- Settles O17: a frame is recorded with its payload in `RXP`; a rejection records and answers its code. -/
theorem decodeCommandAnswers : Obligations.DecodeCommandAnswers := by
  intro a low data s hidle
  refine ⟨fun fr hd => ?_, fun e hd => ?_⟩
  · obtain ⟨hpayload, -⟩ := s.recordFrame_rxPayload (decodeFrame_payload_length hd)
    refine ⟨_, exec_decode_of_frame hidle a low hd, ?_, hpayload⟩
    rw [← Frame.isAck_eq]
    rfl
  · obtain ⟨hcode, hiff⟩ := rejectCode_cases e
    exact ⟨rejectCode e, hcode, hiff, exec_decode_of_no_frame hidle a low hd⟩

end Sys2Proof.Machine
end

section
/-! PROOF of the family 43_arq.md: the transmission of `Sending`, the SEND command, what a tick, a cancel and a received
buffer do in `Idle` and during the wait, and the run to rest. One lemma says what each operation answers in the case
that a statement is about; the statements read its fields off. -/

namespace Sys2Proof.Machine

/-! ## Resolution and transmission (R123 to R125, R135, R136) -/

/-- The fields that resolving a SEND writes; the `Rsp` carries the number of retries used. -/
theorem State.resolve_eq (s : State) (err : ErrCode) :
    s.resolve err =
      { s with
        resultErr := err, arq := .idle, out := s.out ++ [.rsp err (BitVec.ofNat 32 s.attempts.toNat) []] } := by
  rw [BitVec.ofNat_toNat]
  rfl

/-- A transmission that succeeds starts a full wait (R124). -/
theorem arqSending_of_txOk {s : State} {f : Bytes} (hf : s.txFrame = .ok f) (hok : s.txOk = true) :
    arqSending s = .next { s with waitRem := s.timeout, arq := .awaitingAck, out := s.out ++ [.transmit f] } := by
  rw [arqSending_of_frame hf, if_pos hok]
  rfl

/-- A transmission that fails resolves the SEND with code 4 (R125). -/
theorem arqSending_of_txFail {s : State} {f : Bytes} (hf : s.txFrame = .ok f) (hok : s.txOk = false) :
    arqSending s = .next
      { s with
        resultErr := .transportFailure, arq := .idle
        out := s.out ++ [.transmit f, .rsp .transportFailure (BitVec.ofNat 32 s.attempts.toNat) []] } := by
  rw [arqSending_of_frame hf, if_neg (by simp [hok]), State.resolve_eq, State.emit_out, List.append_assoc]
  rfl

/-- The internal transition of `Sending` in the table of R119. -/
theorem arqInternal_of_sending {s : State} (h : s.arq = .sending) : arqInternal s = arqSending s := by
  rw [arqInternal, h]

/-- Settles O20, by the two answers of the transport. -/
theorem sendingTransmitsOnce : Obligations.SendingTransmitsOnce := by
  intro s f hs hf
  rw [arqInternal_of_sending hs]
  by_cases hok : s.txOk = true
  · rw [if_pos hok, arqSending_of_txOk hf hok]
  · rw [if_neg hok, arqSending_of_txFail hf (Bool.eq_false_iff.mpr hok)]

/-! ## The SEND command (R120 to R122) -/

/-- In `Idle`, a payload that `encode` does not take is answered with code 1. -/
theorem exec_send_of_long {s : State} (h : s.arq = .idle) (a : BitVec 16) (reserved : BitVec 8) {data : Bytes}
    (hd : 255 < data.length) :
    exec (.send a reserved data) s =
      .next ({ s with cancelled := false, resultErr := .payloadTooLarge }.respond .payloadTooLarge 0 []) := by
  have hnone : ({ s with cancelled := false } : State).encode a data = none := State.encode_eq_none.mpr hd
  show execSend a reserved data s = _
  rw [execSend, State.whenIdle_of_idle h]
  simp only [hnone]

/-- In `Idle`, the attempt starts with the frame that `encode` builds, and its run to rest is the transmission. -/
theorem exec_send_of_some {s u : State} (h : s.arq = .idle) (a : BitVec 16) (reserved : BitVec 8) {data f : Bytes}
    (hu : ({ s with cancelled := false } : State).encode a data = some (f, u)) :
    exec (.send a reserved data) s = arqSending (startAttempt u) := by
  show execSend a reserved data s = _
  rw [execSend, State.whenIdle_of_idle h]
  simp only [hu]
  exact runToRest_of_sending (startAttempt_arq u)

/-- Settles O21: the transmission of the frame that `encode` leaves in `TXF`, for either answer of the transport. -/
theorem sendStartsTheAttempt : Obligations.SendStartsTheAttempt := by
  intro a low data s hidle hd f
  obtain ⟨u, hu, heq, -, -, hframe, -⟩ := State.encode_spec { s with cancelled := false } a hd
  have hsent : (startAttempt u).txFrame = .ok f := hframe
  have hdraw : (startAttempt u).txOk = s.txOk := by rw [startAttempt_txOk, heq]
  rw [exec_send_of_some hidle a low hu]
  cases hok : s.txOk with
  | true =>
    refine ⟨_, arqSending_of_txOk hsent (hdraw.trans hok), ?_, hframe⟩
    conv_lhs => rw [heq]
    simp [startAttempt, hok]
  | false =>
    refine ⟨_, arqSending_of_txFail hsent (hdraw.trans hok), ?_, hframe⟩
    conv_lhs => rw [heq]
    simp [startAttempt, hok]

/-- Settles O22: `encode` refuses the payload, and the response is the only output. -/
theorem sendRefusesLongPayloads : Obligations.SendRefusesLongPayloads := by
  intro a low data s hidle hd
  rw [exec_send_of_long hidle a low hd, State.respond_eq]

/-! ## Ticks and cancels (R131, R132, R138, R144) -/

/-- No timer runs outside the wait (R138, R144). -/
theorem onTick_of_not_awaitingAck {s : State} (h : s.arq ≠ .awaitingAck) : onTick s = .next s := if_neg h

/-- Outside the wait there is nothing to cancel (R138). -/
theorem onCancel_of_not_awaitingAck {s : State} (h : s.arq ≠ .awaitingAck) : onCancel s = .next s := if_neg h

/-- A cancel of the wait is its exhaustion, with `CANCELLED` set (R132, R136). -/
theorem onCancel_of_awaitingAck {s : State} (h : s.arq = .awaitingAck) :
    onCancel s = .next ({ s with cancelled := true }.resolve .retriesExhausted) :=
  calc onCancel s
      = runToRest { s with cancelled := true, arq := .exhausted } := if_pos h
    _ = .next ({ s with cancelled := true }.resolve .retriesExhausted) := runToRest_of_exhausted rfl

/-- Settles O24: the attempt is resolved with code 6. -/
theorem cancelAbortsTheWait : Obligations.CancelAbortsTheWait := by
  intro s ok rest hwait hin
  rw [step_of_inbox hin, onEvent, onCancel_of_awaitingAck (by exact hwait), State.resolve_eq]
  rfl

/-- Settles O25: neither event does anything outside the wait, so only its input is taken. -/
theorem tickAndCancelInIdleDoNothing : Obligations.TickAndCancelInIdleDoNothing := by
  intro s e ok rest hidle hin he
  have hnot : (s.takeInput ⟨e, ok⟩ rest).arq ≠ .awaitingAck := by simp [hidle]
  rw [step_of_inbox hin]
  obtain rfl | rfl := he
  · exact onTick_of_not_awaitingAck hnot
  · exact onCancel_of_not_awaitingAck hnot

/-! ## Buffers received during the wait (R129, R130) -/

/-- A FRAME.ACK names what the attempt waits for exactly when it names `OUTSEQ` (R134). -/
theorem ackMatches_ack (src dst : DeviceId) (q acked : Byte) (s : State) :
    ackMatches ⟨src, dst, q, [Config.ackMark, acked]⟩ s = decide (acked = s.outSeq) := by
  rw [ackMatches, Frame.isAck_ack, Frame.ackedSeq_ack, Bool.true_and]

/-- A data frame matches no attempt (R134). -/
theorem ackMatches_of_not_isAck {fr : Frame} (h : fr.isAck = false) (s : State) : ackMatches fr s = false := by
  rw [ackMatches, h, Bool.false_and]

/-- During the wait a frame is recorded, and then checked against the attempt (R129). -/
theorem onFrame_of_awaitingAck {s : State} (h : s.arq = .awaitingAck) (fr : Frame) :
    onFrame fr s =
      if ackMatches fr s then runToRest { s.recordFrame fr with arq := .acknowledged }
      else .next (s.recordFrame fr) := by
  rw [onFrame, h]
  rfl

/-- During the wait a matching ACK is recorded and resolves the SEND (R129, R135). -/
theorem onFrame_of_match {s : State} (h : s.arq = .awaitingAck) {fr : Frame} (hm : ackMatches fr s = true) :
    onFrame fr s = .next ((s.recordFrame fr).resolve .success) := by
  rw [onFrame_of_awaitingAck h, if_pos hm, runToRest_of_acknowledged rfl]
  rfl

/-- During the wait any other frame is recorded and dropped (R130). -/
theorem onFrame_of_no_match {s : State} (h : s.arq = .awaitingAck) {fr : Frame} (hm : ackMatches fr s = false) :
    onFrame fr s = .next (s.recordFrame fr) := by
  rw [onFrame_of_awaitingAck h, if_neg (by simp [hm])]

/-- The code of a rejected buffer, by the check that failed (R106). -/
theorem rejectCode_eq (e : DecodeError) :
    rejectCode e = if e = .checksumMismatch then .checksumMismatch else .malformedFrame := by
  cases e <;> rfl

/-- Settles O27: the ACK is recorded, and the SEND resolved with code 0. -/
theorem matchingAckResolvesTheSend : Obligations.MatchingAckResolvesTheSend := by
  intro src dst q s hwait
  have hmatch : ackMatches ⟨src, dst, q, [Config.ackMark, s.outSeq]⟩ s = true :=
    (ackMatches_ack ..).trans (decide_eq_true rfl)
  obtain ⟨hpayload, -⟩ := s.recordFrame_rxPayload (fr := ⟨src, dst, q, [Config.ackMark, s.outSeq]⟩) (by simp)
  refine ⟨_, onFrame_of_match hwait hmatch, ?_, hpayload⟩
  rw [State.resolve_eq, State.recordFrame, Frame.isAck_ack]
  rfl

/-- Settles O28: an ACK for another number and a data frame match nothing; a rejected buffer is no frame. -/
theorem everythingElseDuringTheWaitIsDropped : Obligations.EverythingElseDuringTheWaitIsDropped := by
  refine ⟨fun src dst q s hwait => ⟨fun acked hne => ?_, fun p hwf => ?_⟩, fun s b e ok rest hwait hin hd => ?_⟩
  · have hother : ackMatches ⟨src, dst, q, [Config.ackMark, acked]⟩ s = false :=
      (ackMatches_ack ..).trans (decide_eq_false hne)
    obtain ⟨hpayload, -⟩ := s.recordFrame_rxPayload (fr := ⟨src, dst, q, [Config.ackMark, acked]⟩) (by simp)
    refine ⟨_, onFrame_of_no_match hwait hother, ?_, hpayload⟩
    rw [State.recordFrame, Frame.isAck_ack]
    rfl
  · have hdata := Frame.isAck_of_wf hwf
    obtain ⟨hpayload, -⟩ := s.recordFrame_rxPayload (fr := ⟨src, dst, q, p⟩) (wf_frame_iff.mp hwf).1
    refine ⟨_, onFrame_of_no_match hwait (ackMatches_of_not_isAck hdata s), ?_, hpayload⟩
    rw [State.recordFrame, hdata]
  · have hrest : (s.takeInput ⟨.rxBytes b, ok⟩ rest).atRest = true := State.atRest_of_awaitingAck hwait
    rw [step_of_inbox hin, onEvent, onWire_of_no_frame hd, onRejected, if_pos hrest, State.recordReject, rejectCode_eq]
    rfl

/-! ## The run to rest (R139) -/

/-- A run from `s` that stops in `t` is over, and has appended to the outputs, with at most one `Transmit`. -/
def State.EndsAtRest (s t : State) : Prop :=
  (t.arq = .idle ∨ t.arq = .awaitingAck) ∧
    ∃ os, t.out = s.out ++ os ∧ (os.filter Output.isTransmit).length ≤ 1

/-- A state at rest has run to rest. -/
theorem State.endsAtRest_self {s : State} (h : s.arq = .idle ∨ s.arq = .awaitingAck) : s.EndsAtRest s :=
  ⟨h, [], by simp⟩

/-- A resolution ends the run, with a `Rsp` alone. -/
theorem State.endsAtRest_resolve (s : State) (err : ErrCode) : s.EndsAtRest (s.resolve err) :=
  ⟨.inl (State.resolve_arq s err), _, State.resolve_out s err, by simp⟩

/-- `Sending` ends the run with its one `Transmit`, whatever the transport answers. -/
theorem arqSending_endsAtRest {s t : State} (h : arqSending s = .next t) : s.EndsAtRest t := by
  obtain ⟨f, -, ⟨-, rfl⟩ | ⟨-, rfl⟩⟩ := arqSending_eq_next h
  · exact ⟨.inr rfl, [.transmit f], rfl, by simp [List.filter_cons]⟩
  · exact ⟨.inl rfl, [.transmit f, .rsp .transportFailure (s.attempts.zeroExtend 32) []], by simp,
      by simp [List.filter_cons]⟩

/-- Where the run from each of the six states completes, it is over. -/
theorem runToRest_endsAtRest {s t : State} (h : runToRest s = .next t) : s.EndsAtRest t := by
  cases ha : s.arq with
  | idle =>
    rw [runToRest_of_idle ha] at h
    cases h
    exact State.endsAtRest_self (.inl ha)
  | awaitingAck =>
    rw [runToRest_of_awaitingAck ha] at h
    cases h
    exact State.endsAtRest_self (.inr ha)
  | sending =>
    rw [runToRest_of_sending ha] at h
    exact arqSending_endsAtRest h
  | retrying =>
    by_cases hlt : s.attempts < s.maxRetry
    · rw [runToRest_of_retrying_lt ha hlt] at h
      show State.EndsAtRest { s with attempts := s.attempts + 1, arq := .sending } t
      exact arqSending_endsAtRest h
    · rw [runToRest_of_retrying_ge ha hlt] at h
      cases h
      exact State.endsAtRest_resolve { s with arq := .exhausted } .retriesExhausted
  | acknowledged =>
    rw [runToRest_of_acknowledged ha] at h
    cases h
    exact s.endsAtRest_resolve .success
  | exhausted =>
    rw [runToRest_of_exhausted ha] at h
    cases h
    exact s.endsAtRest_resolve .retriesExhausted

/-- `Sending` completes when its frame can be read. -/
theorem arqSending_completes {s : State} (h : ∃ f, s.txFrame = .ok f) : ∃ t, arqSending s = .next t :=
  let ⟨_, hf⟩ := h
  ⟨_, arqSending_of_frame hf⟩

/-- The run from each of the six states completes, if the frame it has to transmit can be read. -/
theorem runToRest_completes {s : State}
    (h : s.arq = .sending ∨ (s.arq = .retrying ∧ s.attempts.toNat < s.maxRetry.toNat) → ∃ f, s.txFrame = .ok f) :
    ∃ t, runToRest s = .next t := by
  cases ha : s.arq with
  | idle => exact ⟨_, runToRest_of_idle ha⟩
  | awaitingAck => exact ⟨_, runToRest_of_awaitingAck ha⟩
  | sending =>
    rw [runToRest_of_sending ha]
    exact arqSending_completes (h (.inl ha))
  | retrying =>
    by_cases hlt : s.attempts < s.maxRetry
    · rw [runToRest_of_retrying_lt ha hlt]
      exact arqSending_completes (h (.inr ⟨ha, BitVec.lt_def.mp hlt⟩))
    · exact ⟨_, runToRest_of_retrying_ge ha hlt⟩
  | acknowledged => exact ⟨_, runToRest_of_acknowledged ha⟩
  | exhausted => exact ⟨_, runToRest_of_exhausted ha⟩

/-- Continuations of a result compose. -/
theorem Result.andThen_assoc (r : Result) (j k : State → Result) :
    (r.andThen j).andThen k = r.andThen fun s => (j s).andThen k := by
  cases r <;> rfl

/-- A run of `m + n` internal transitions is one of `m` and then one of `n`. -/
theorem arqSettle_add (m n : Nat) (s : State) : arqSettle (m + n) s = (arqSettle m s).andThen (arqSettle n) := by
  induction m generalizing s with
  | zero => rw [Nat.zero_add]; rfl
  | succ m ih =>
    by_cases hr : s.atRest = true
    · rw [arqSettle_of_rest hr, arqSettle_of_rest hr]
      exact (arqSettle_of_rest hr).symm
    · rw [Nat.succ_add, arqSettle, arqSettle, if_neg hr, if_neg hr, Result.andThen_assoc]
      exact congrArg _ (funext ih)

/-- A run to rest stays where it ends, however many transitions are allowed (R139). -/
theorem arqSettle_two_add (n : Nat) (s : State) : arqSettle (2 + n) s = runToRest s := by
  rw [arqSettle_add]
  show (runToRest s).andThen _ = _
  cases hrun : runToRest s with
  | next t =>
    obtain ⟨hrest, -⟩ := runToRest_endsAtRest hrun
    exact arqSettle_of_rest (hrest.elim State.atRest_of_idle State.atRest_of_awaitingAck)
  | fault f => rfl
  | refused r => rfl

/-- Settles O29, by the six states for the first two clauses and by composing runs for the third. -/
theorem runToRestEndsAtRest : Obligations.RunToRestEndsAtRest :=
  ⟨fun _ _ => runToRest_endsAtRest, fun _ => runToRest_completes, fun s n => arqSettle_two_add n s⟩

end Sys2Proof.Machine
end

section
/-! PROOF of the family 44_receive.md: what a received buffer does in `Idle` (R148 to R157), and what a rejected one
does at rest (R116, R149, R130). A frame is first recorded by the decode unit; one lemma for each of the three ways on from
there, and one for the acknowledgment, say what happens next. -/

namespace Sys2Proof.Machine

/-! ## The receive path in `Idle` (R148) -/

/-- In `Idle` a frame is recorded and then received. -/
theorem onFrame_of_idle {s : State} (h : s.arq = .idle) (fr : Frame) :
    onFrame fr s = .next (receiveFrame fr (s.recordFrame fr)) := by
  rw [onFrame, h]

/-- A stray ACK is dropped (R150). -/
theorem receiveFrame_of_isAck {fr : Frame} (h : fr.isAck = true) (s : State) : receiveFrame fr s = s := if_pos h

/-- With `AUTOACK = 0` a data frame is only delivered (R151, R156). -/
theorem receiveFrame_of_not_autoAck {fr : Frame} {s : State} (h : fr.isAck = false) (ha : s.autoAck = false) :
    receiveFrame fr s = s.emit (.deliver fr.src fr.dst fr.seq fr.payload) := by
  rw [receiveFrame, if_neg (by simp [h]), if_neg (by simp [ha])]

/-- With `AUTOACK = 1` a data frame is delivered and then acknowledged (R151, R152). -/
theorem receiveFrame_of_autoAck {fr : Frame} {s : State} (h : fr.isAck = false) (ha : s.autoAck = true) :
    receiveFrame fr s = sendAck fr (s.emit (.deliver fr.src fr.dst fr.seq fr.payload)) := by
  rw [receiveFrame, if_neg (by simp [h]), if_pos ha]

/-- The fields that an acknowledgment writes, and the frame it leaves in `TXF` (R152, R153): `ACKTXFAIL` and the outputs
follow the transport's answer. -/
theorem sendAck_eq (fr : Frame) (s : State) :
    sendAck fr s =
      { s with
        seq := s.seq + 1, txLen := 12, txf := (sendAck fr s).txf, ackTxFail := !s.txOk
        out := s.out ++ (.transmit (buildFrame ⟨s.devid, fr.src, s.seq + 1, [Config.ackMark, fr.seq]⟩) ::
          if s.txOk then [] else [.ackTxFail]) } ∧
    (sendAck fr s).txFrame = .ok (buildFrame ⟨s.devid, fr.src, s.seq + 1, [Config.ackMark, fr.seq]⟩) := by
  obtain ⟨u, hu, hsent⟩ := sendAck_spec fr s
  obtain ⟨-, -, heq, -, -, hframe, -⟩ := State.encode_eq_some hu
  rw [hsent]
  refine ⟨?_, hframe⟩
  conv_lhs => rw [heq]
  rfl

/-- An acknowledgment leaves the delivered payload in `RXP`. -/
@[simp] theorem sendAck_rxp (fr : Frame) (s : State) : (sendAck fr s).rxp = s.rxp := by
  obtain ⟨heq, -⟩ := sendAck_eq fr s
  rw [heq]

/-- Settles O34: the frame is recorded, and dropped because it has ACK form. -/
theorem strayAckIsDropped : Obligations.StrayAckIsDropped := by
  intro src dst q acked s hidle
  have hack := Frame.isAck_ack src dst q acked
  obtain ⟨hpayload, -⟩ := s.recordFrame_rxPayload (fr := ⟨src, dst, q, [Config.ackMark, acked]⟩) (by simp)
  refine ⟨s.recordFrame ⟨src, dst, q, [Config.ackMark, acked]⟩, ?_, ?_, hpayload⟩
  · exact (onFrame_of_idle hidle _).trans (congrArg _ (receiveFrame_of_isAck hack _))
  · rw [State.recordFrame, hack]
    rfl

/-- Settles O33: the frame is recorded, then delivered, and with `AUTOACK = 1` acknowledged, for either answer of the
transport. -/
theorem dataFrameIsDeliveredAndAcknowledged : Obligations.DataFrameIsDeliveredAndAcknowledged := by
  intro src dst q p s hidle hwf f
  let fr : Frame := ⟨src, dst, q, p⟩
  let delivered := (s.recordFrame fr).emit (.deliver src dst q p)
  have hdata : fr.isAck = false := Frame.isAck_of_wf hwf
  obtain ⟨hpayload, -⟩ := s.recordFrame_rxPayload (fr := fr) (wf_frame_iff.mp hwf).1
  have hexec : exec (.frame src dst q p) s = .next (receiveFrame fr (s.recordFrame fr)) := onFrame_of_idle hidle fr
  cases hauto : s.autoAck with
  | false =>
    rw [receiveFrame_of_not_autoAck hdata (s := s.recordFrame fr) hauto] at hexec
    refine ⟨delivered, hexec, ?_, hpayload, by simp, fun _ => rfl⟩
    simp [delivered, State.emit, State.recordFrame, hdata, hauto, fr]
  | true =>
    rw [receiveFrame_of_autoAck hdata (s := s.recordFrame fr) hauto] at hexec
    obtain ⟨heq, hframe⟩ := sendAck_eq fr delivered
    refine ⟨sendAck fr delivered, hexec, ?_, ?_, fun _ => hframe, by simp⟩
    · conv_lhs => rw [heq]
      cases hok : s.txOk <;>
        simp [delivered, State.emit, State.recordFrame, hdata, hauto, hok, fr, f, Config.ackMark]
    · rw [heq]
      exact hpayload

/-! ## Rejected buffers at rest (R116, R130, R149) -/

/-- At rest a buffer that is no frame is recorded as rejected, and nothing else happens. -/
theorem step_of_no_frame {s : State} {b : Bytes} {e : DecodeError} {ok : Bool} {rest : List Input}
    (hrest : s.atRest = true) (hin : s.inbox = ⟨.rxBytes b, ok⟩ :: rest) (hd : decodeFrame b = .error e) :
    step s = .next ((s.takeInput ⟨.rxBytes b, ok⟩ rest).recordReject e) := by
  rw [step_of_inbox hin, onEvent, onWire_of_no_frame hd]
  exact if_pos hrest

/-- Settles O35: both resting states record the rejection and drop the buffer. -/
theorem rejectedBuffersAreOnlyRecorded : Obligations.RejectedBuffersAreOnlyRecorded := by
  intro s b e ok rest hs hin hd
  have hrest : s.atRest = true := hs.elim State.atRest_of_idle State.atRest_of_awaitingAck
  rw [step_of_no_frame hrest hin hd, State.recordReject, rejectCode_eq]
  rfl

end Sys2Proof.Machine
end

section
/-! PROOF of the family 45_regaccess.md: what RDREG answers (R159 to R161, R166) and what WRREG writes (R162 to R165,
R167). Both statements speak of numbers and the model of registers, so each number is first tied to the register it
names; each register is then read or written by the case of the model that is about it. -/

namespace Sys2Proof.Machine

/-! ## Register numbers (R13) -/

/-- The number of a register in R13. -/
def Reg.number : Reg → BitVec 8
  | .devid => 0 | .seq => 1 | .maxRetry => 2 | .timeout => 3 | .ctrl => 4 | .status => 5 | .result => 6 | .attempts => 7
  | .waitRem => 8 | .outSeq => 9 | .txLen => 10 | .rxStat => 11 | .rxSrc => 12 | .rxDst => 13 | .rxSeq => 14
  | .rxLen => 15

@[simp] theorem Reg.ofNumber_number (x : Reg) : Reg.ofNumber x.number = some x := by cases x <;> rfl

/-- Only a register's own number names it. -/
theorem Reg.number_of_ofNumber {r : BitVec 8} {x : Reg} (h : Reg.ofNumber r = some x) : r = x.number := by
  unfold Reg.ofNumber at h
  split at h <;> cases h
  all_goals exact BitVec.eq_of_toNat_eq ‹_›

/-- The numbers that name no register are 16 to 255 (R41). -/
theorem Reg.le_toNat_of_ofNumber_none {r : BitVec 8} (h : Reg.ofNumber r = none) : 16 ≤ r.toNat := by
  by_contra hlt
  unfold Reg.ofNumber at h
  generalize r.toNat = n at h hlt
  interval_cases n <;> cases h

/-! ## The words of the packed registers as numbers (R18, R20, R21, R25) -/

/-- Appending a field below moves the fields above it up by its width. -/
theorem toNat_append_eq_add {m n : Nat} (x : BitVec m) (y : BitVec n) :
    (x ++ y).toNat = x.toNat * 2 ^ n + y.toNat := by
  rw [BitVec.toNat_append, ← Nat.shiftLeft_add_eq_or_of_lt y.isLt, Nat.shiftLeft_eq]

theorem State.ctrlWord_toNat (s : State) : s.ctrlWord.toNat = s.autoAck.toNat := by
  rw [State.ctrlWord, toNat_append_eq_add]
  simp

/-- RDREG runs in `Idle` only, so `STATUS` reads with `STATE = 0` and `BUSY = 0` (R160). -/
theorem State.statusWord_toNat_of_idle {s : State} (h : s.arq = .idle) :
    s.statusWord.toNat = 16 * s.cancelled.toNat + 32 * s.ackTxFail.toNat := by
  have hbusy : s.busy = false := by simp [State.busy, h]
  rw [State.statusWord, hbusy, h, toNat_append_eq_add, toNat_append_eq_add, toNat_append_eq_add, toNat_append_eq_add]
  simp only [ArqState.code, BitVec.ofNat_eq_ofNat, BitVec.toNat_ofNat, BitVec.toNat_ofBool, Bool.toNat_false]
  omega

theorem State.resultWord_toNat (s : State) : s.resultWord.toNat = s.resultErr.code.toNat := by
  rw [State.resultWord, toNat_append_eq_add]
  simp

theorem State.rxstatWord_toNat (s : State) :
    s.rxstatWord.toNat = s.rxValid.toNat + 2 * s.rxErr.code.toNat + 16 * s.rxAck.toNat := by
  rw [State.rxstatWord, toNat_append_eq_add, toNat_append_eq_add, toNat_append_eq_add]
  simp only [BitVec.toNat_ofNat, BitVec.toNat_ofBool]
  omega

/-! ## The RDREG command (R159 to R161) -/

/-- In `Idle`, the number of a register is answered with the register's value. -/
theorem exec_rdreg_of_register {s : State} (h : s.arq = .idle) (x : Reg) (v : Value) :
    exec (.rdreg x.number v) s = .next (s.respond .success (s.readReg x) []) := by
  show execRdreg x.number v s = _
  rw [execRdreg, State.whenIdle_of_idle h, Reg.ofNumber_number]

/-- In `Idle`, RDREG of a reserved number is refused (R161). -/
theorem exec_rdreg_of_reserved {s : State} (h : s.arq = .idle) {r : BitVec 8} (hr : Reg.ofNumber r = none) (v : Value) :
    exec (.rdreg r v) s = .next s.refuseCommand := by
  show execRdreg r v s = _
  rw [execRdreg, State.whenIdle_of_idle h, hr]

/-- Settles O18: a register's number is its place in the table, where its value stands as a number; the reserved numbers
are past the table's end. -/
theorem rdregAnswersTheRegister : Obligations.RdregAnswersTheRegister := by
  intro r v s hidle table
  cases hr : Reg.ofNumber r with
  | none =>
    have hpast : table[r.toNat]? = none := List.getElem?_eq_none (Reg.le_toNat_of_ofNumber_none hr)
    rw [exec_rdreg_of_reserved hidle hr, hpast]
    rfl
  | some x =>
    obtain rfl := Reg.number_of_ofNumber hr
    have hentry : table[x.number.toNat]? = some (s.readReg x).toNat := by
      cases x with
      | ctrl => exact congrArg some s.ctrlWord_toNat.symm
      | status => exact congrArg some (State.statusWord_toNat_of_idle hidle).symm
      | result => exact congrArg some s.resultWord_toNat.symm
      | rxStat => exact congrArg some s.rxstatWord_toNat.symm
      | timeout | waitRem => rfl
      | _ => exact congrArg some (BitVec.toNat_setWidth_of_le (by decide)).symm
    calc exec (.rdreg x.number v) s
        = .next (s.respond .success (s.readReg x) []) := exec_rdreg_of_register hidle x v
      _ = .next (s.respond .success (BitVec.ofNat 32 (s.readReg x).toNat) []) := by
        rw [BitVec.ofNat_toNat, BitVec.setWidth_eq]
      _ = _ := by
        rw [hentry]
        rfl

/-! ## The WRREG command (R162 to R165, R167) -/

/-- In `Idle`, WRREG of a register is answered with success where the write is taken, and refused where it is not. -/
theorem exec_wrreg_of_register {s : State} (h : s.arq = .idle) (x : Reg) (v : Value) :
    exec (.wrreg x.number v) s = .next ((s.writeReg x v).elim s.refuseCommand fun u => u.respond .success 0 []) := by
  show execWrreg x.number v s = _
  rw [execWrreg, State.whenIdle_of_idle h, Reg.ofNumber_number, Option.bind_some]
  cases s.writeReg x v <;> rfl

/-- In `Idle`, WRREG of a reserved number is refused (R167). -/
theorem exec_wrreg_of_reserved {s : State} (h : s.arq = .idle) {r : BitVec 8} (hr : Reg.ofNumber r = none) (v : Value) :
    exec (.wrreg r v) s = .next s.refuseCommand := by
  show execWrreg r v s = _
  rw [execWrreg, State.whenIdle_of_idle h, hr, Option.bind_none]

/-- Bit 0 of a value is its parity. -/
theorem getLsbD_zero_eq (v : Value) : v.getLsbD 0 = decide (v.toNat % 2 = 1) := by
  rw [BitVec.getLsbD, Nat.testBit_zero]

/-- Settles O19: `MAXRETRY` and `TIMEOUT` take the write or refuse it by the value, `CTRL` takes its parity, the other
registers refuse every value, and a reserved number is none of the three that can be written. -/
theorem wrregWritesOrRefuses : Obligations.WrregWritesOrRefuses := by
  intro r v s hidle
  cases hr : Reg.ofNumber r with
  | none =>
    have hne (x : Reg) : r ≠ x.number := by
      rintro rfl
      simp at hr
    have h2 : r ≠ 2 := hne .maxRetry
    have h3 : r ≠ 3 := hne .timeout
    have h4 : r ≠ 4 := hne .ctrl
    rw [exec_wrreg_of_reserved hidle hr, if_neg fun h => h2 h.1, if_neg fun h => h3 h.1, if_neg h4]
    rfl
  | some x =>
    obtain rfl := Reg.number_of_ofNumber hr
    rw [exec_wrreg_of_register hidle]
    cases x with
    | maxRetry =>
      by_cases hv : v.toNat ≤ 255
      · rw [State.writeReg, if_pos hv, if_pos ⟨rfl, hv⟩]
        rfl
      · rw [State.writeReg, if_neg hv, if_neg fun h => hv h.2]
        rfl
    | timeout =>
      by_cases hv : v ≠ 0
      · rw [State.writeReg, if_pos hv, if_neg fun h => absurd h.1 (by decide), if_pos ⟨rfl, hv⟩]
        rfl
      · rw [State.writeReg, if_neg hv, if_neg fun h => absurd h.1 (by decide), if_neg fun h => hv h.2]
        rfl
    | ctrl =>
      rw [← getLsbD_zero_eq]
      rfl
    | _ => rfl

end Sys2Proof.Machine
end

section
/-! PROOF of the family 70_reset_and_hazards.md: what a `Reset` leaves (R191, R34). The step is computed once; the packed
registers are then read from the reset values of their fields. -/

namespace Sys2Proof.Machine

/-! ## The packed registers at the reset values of their fields (R18, R20, R21, R25) -/

theorem State.ctrlWord_eq_one {s : State} (hauto : s.autoAck = true) : s.ctrlWord = 1 :=
  BitVec.eq_of_toNat_eq (by rw [s.ctrlWord_toNat, hauto]; rfl)

theorem State.statusWord_eq_zero {s : State} (hidle : s.arq = .idle) (hcancelled : s.cancelled = false)
    (hackTxFail : s.ackTxFail = false) : s.statusWord = 0 :=
  BitVec.eq_of_toNat_eq (by rw [State.statusWord_toNat_of_idle hidle, hcancelled, hackTxFail]; rfl)

theorem State.resultWord_eq_zero {s : State} (herr : s.resultErr = .success) : s.resultWord = 0 :=
  BitVec.eq_of_toNat_eq (by rw [s.resultWord_toNat, herr]; rfl)

theorem State.rxstatWord_eq_zero {s : State} (hvalid : s.rxValid = false) (herr : s.rxErr = .success)
    (hack : s.rxAck = false) : s.rxstatWord = 0 :=
  BitVec.eq_of_toNat_eq (by rw [s.rxstatWord_toNat, hvalid, herr, hack]; rfl)

/-! ## The `Reset` event (R191) -/

/-- A `Reset` completes in every state, even during a wait (R192), and keeps of the old state the parameters only. -/
theorem step_of_reset {s : State} {ok : Bool} {rest : List Input} (hin : s.inbox = ⟨.reset, ok⟩ :: rest) :
    step s = .next { State.resetWith s.params with inbox := rest, txOk := ok, out := [] } := by
  rw [step_of_inbox hin]
  rfl

/-- Settles O39: the state a `Reset` leaves has each register field at its reset value, and the packed registers read as
those fields say. -/
theorem resetEventRestoresEveryRegister : Obligations.ResetEventRestoresEveryRegister := by
  intro s ok rest hin
  refine ⟨_, step_of_reset hin, rfl, rfl, rfl, rfl, ?ctrl, rfl, ?status, ?result, rfl, rfl, rfl, rfl, ?rxstat, rfl, rfl,
    rfl, rfl, rfl, rfl, rfl⟩
  case ctrl => exact State.ctrlWord_eq_one rfl
  case status => exact State.statusWord_eq_zero rfl rfl rfl
  case result => exact State.resultWord_eq_zero rfl
  case rxstat => exact State.rxstatWord_eq_zero rfl rfl rfl

end Sys2Proof.Machine
end

section
/-! PROOF of the encodings, 30_encoding.md and the reader of 42_codec.md: `decode` and `encode` are inverse to each other
(R72 to R75, R106, D4), the fields of a command word by their place, and the response word (R76). A buffer is compared with
the frame built from what was read out of it byte by byte; a command word is the sum of its fields. -/

namespace Sys2Proof

/-! ## The frames `decode` accepts (R106) -/

/-- Byte strings of the same length with the same bytes are equal. -/
theorem eq_of_byteAt_eq {b b' : Bytes} (hlen : b.length = b'.length) (h : ∀ i < b.length, byteAt b i = byteAt b' i) :
    b = b' := by
  refine List.ext_getElem hlen fun i hi hi' => ?_
  rw [← Option.some.injEq, ← List.getElem?_eq_getElem hi, ← List.getElem?_eq_getElem hi',
    getElem?_eq_some_byteAt hi, getElem?_eq_some_byteAt hi', h i hi]

/-- Slices of the same bounds with the same bytes between them are equal. -/
theorem slice_eq_of_byteAt_eq {b b' : Bytes} {m n : Nat} (hlen : b.length = b'.length)
    (h : ∀ i, m ≤ i → i < n → byteAt b i = byteAt b' i) : slice b m n = slice b' m n := by
  refine eq_of_byteAt_eq (by simp [slice, hlen]) fun i hi => ?_
  have hin : m + i < n := by simp only [slice, List.length_take] at hi; omega
  rw [byteAt_slice hin, byteAt_slice hin, h _ (by omega) hin]

/-- What `decode` has checked and read when it answers a frame: the layout, the checksum, and the fields of R112. -/
theorem decodeFrame_eq_ok {raw : Bytes} {fr : Frame} (h : decodeFrame raw = .ok fr) :
    HasLayout raw ∧
    crc16 (slice raw 1 (7 + (byteAt raw 6).toNat)) =
      be16 (byteAt raw (7 + (byteAt raw 6).toNat)) (byteAt raw (8 + (byteAt raw 6).toNat)) ∧
    fr = { src := be16 (byteAt raw 1) (byteAt raw 2), dst := be16 (byteAt raw 3) (byteAt raw 4)
           seq := byteAt raw 5, payload := slice raw 7 (7 + (byteAt raw 6).toNat) } := by
  unfold decodeFrame at h
  split_ifs at h with hlong hheader hfooter hlength hcrc
  cases h
  exact ⟨⟨not_lt.mp hlong, not_not.mp hheader, not_not.mp hfooter, not_not.mp hlength⟩, not_not.mp hcrc, rfl⟩

/-- A buffer that `decode` accepts is the frame built from what it reads: the bytes up to the payload's end are the fields
it has read, so the checksum covers the same bytes, and what follows it is the footer. -/
theorem buildFrame_of_decodeFrame {raw : Bytes} {fr : Frame} (h : decodeFrame raw = .ok fr) : raw = buildFrame fr := by
  obtain ⟨⟨-, hheader, hfooter, hlength⟩, hcrc, hfr⟩ := decodeFrame_eq_ok h
  generalize hn : (byteAt raw 6).toNat = n at hlength hcrc hfr
  have hp : fr.payload.length = n := by rw [hfr]; simp only [slice, List.length_take, List.length_drop]; omega
  have hlen : raw.length = (buildFrame fr).length := by rw [buildFrame_length]; omega
  have hlenByte : byteAt raw 6 = BitVec.ofNat 8 fr.payload.length := by
    rw [hp, ← hn, BitVec.ofNat_toNat, BitVec.setWidth_eq]
  have hcovered : ∀ i < 7 + n, byteAt raw i = byteAt (buildFrame fr) i := by
    intro i hi
    by_cases hpay : i < 7
    · interval_cases i
      · exact hheader
      all_goals simp [hfr, hlenByte]
    · obtain ⟨k, rfl⟩ : ∃ k, i = 7 + k := ⟨i - 7, by omega⟩
      rw [byteAt_buildFrame_payload fr (by omega), hfr, byteAt_slice (by omega)]
  have hbody : slice raw 1 (7 + n) = frameBody fr := by
    rw [slice_eq_of_byteAt_eq hlen fun i _ hi => hcovered i hi, ← hp, slice_buildFrame_body]
  have hhi := byteAt_buildFrame_crc_hi fr
  have hlo := byteAt_buildFrame_crc_lo fr
  have hftr := byteAt_buildFrame_footer fr
  rw [← hbody, hcrc, hp] at hhi hlo
  rw [hiByte_be16] at hhi
  rw [loByte_be16] at hlo
  rw [hp] at hftr
  refine eq_of_byteAt_eq hlen fun i hi => ?_
  obtain hlt | rfl | rfl | rfl : i < 7 + n ∨ i = 7 + n ∨ i = 8 + n ∨ i = 9 + n := by omega
  · exact hcovered i hlt
  · exact hhi.symm
  · exact hlo.symm
  · rw [hftr, ← hfooter, hlength, show 10 + n - 1 = 9 + n by omega]

/-- Settles O12: what is accepted is built from what is read, and a built frame is read back. -/
theorem decodeAcceptsExactlyTheBuiltFrames : Obligations.DecodeAcceptsExactlyTheBuiltFrames := by
  refine fun raw fr => ⟨fun h => ⟨decodeFrame_payload_length h, buildFrame_of_decodeFrame h⟩, ?_⟩
  rintro ⟨hp, rfl⟩
  exact decodeFrame_buildFrame hp

/-! ## Frames as instructions (R70) -/

/-- A frame of ACK form is the FRAME.ACK that names its second payload byte. -/
theorem Frame.toInstr_of_isAck {fr : Frame} (h : fr.isAck = true) :
    fr.toInstr = .frameAck fr.src fr.dst fr.seq fr.ackedSeq := if_pos h

/-- Any other frame is a FRAME. -/
theorem Frame.toInstr_of_not_isAck {fr : Frame} (h : fr.isAck = false) :
    fr.toInstr = .frame fr.src fr.dst fr.seq fr.payload := if_neg (by simp [h])

/-- The payload of an ACK frame is the mark and the number it names. -/
theorem Frame.payload_of_isAck {fr : Frame} (h : fr.isAck = true) : fr.payload = [Config.ackMark, fr.ackedSeq] := by
  obtain ⟨hlen, hmark⟩ := Frame.isAck_iff.mp h
  obtain ⟨x, y, hp⟩ := List.length_eq_two.mp hlen
  obtain rfl : x = Config.ackMark := by simpa [hp] using hmark
  simp [Frame.ackedSeq, hp, byteAt]

/-- A buffer is read as the instruction of its frame. -/
theorem decode_buffer_of_frame {raw : Bytes} {fr : Frame} (h : decodeFrame raw = .ok fr) :
    decode (.buffer raw) = .ok fr.toInstr := by simp only [decode, h]

/-- What is read from a buffer is the instruction of a frame. -/
theorem decode_buffer_eq_ok {raw : Bytes} {i : Instr} (h : decode (.buffer raw) = .ok i) :
    ∃ fr, decodeFrame raw = .ok fr ∧ fr.toInstr = i := by
  cases hf : decodeFrame raw with
  | error e => simp [decode, hf] at h
  | ok fr => exact ⟨fr, rfl, by simpa [decode, hf] using h⟩

/-- The instruction of a frame that fits is well-formed. -/
theorem Frame.wf_toInstr {fr : Frame} (h : fr.payload.length ≤ 255) : fr.toInstr.wf = true := by
  cases hk : fr.isAck with
  | true => rw [Frame.toInstr_of_isAck hk]; rfl
  | false =>
    rw [Frame.toInstr_of_not_isAck hk, wf_frame_iff, ← Frame.isAck_iff, hk]
    exact ⟨h, Bool.false_ne_true⟩

/-- The instruction of a frame is encoded as the frame. -/
theorem Frame.encode_toInstr (fr : Frame) : encode fr.toInstr = .buffer (buildFrame fr) := by
  cases hk : fr.isAck with
  | true => rw [Frame.toInstr_of_isAck hk, encode, ← Frame.payload_of_isAck hk]
  | false => rw [Frame.toInstr_of_not_isAck hk, encode]

/-! ## Both round trips (R72 to R75, R106) -/

/-- Settles O1, by the rows of the opcode table: the fields of a command word and the bytes of a frame are read back. -/
theorem decodeOfEncodeIsTheInstruction : Obligations.DecodeOfEncodeIsTheInstruction := by
  intro i hwf
  cases i with
  | crc16 a low d | encode a low d | decode a low d | send a low d =>
    simp only [encode, formatB, decode, decodeCommand, op_formatB]
    exact Machine.decodeFormatB_of_fields _ _ a low (of_decide_eq_true hwf)
  | rdreg r v | wrreg r v =>
    simp only [encode, formatR, decode, decodeCommand, op_formatR, r_formatR, v_formatR]
    rfl
  | frame src dst q p =>
    have hdata := Frame.isAck_of_wf hwf
    exact (decode_buffer_of_frame (decodeFrame_buildFrame (wf_frame_iff.mp hwf).1)).trans
      (congrArg _ (Frame.toInstr_of_not_isAck hdata))
  | frameAck src dst q acked =>
    have hack := Frame.isAck_ack src dst q acked
    exact (decode_buffer_of_frame (decodeFrame_buildFrame (by simp))).trans (congrArg _ (Frame.toInstr_of_isAck hack))

/-- What is read from a Format B word has an encoding, the word itself with its data. -/
theorem encode_of_decodeFormatB {make : BitVec 16 → BitVec 8 → Bytes → Instr} {op : BitVec 8} {w : CommandWord}
    {d : Bytes} {i : Instr} (hop : CommandWord.op w = op)
    (hwf : ∀ a low, (make a low d).wf = decide (Instr.formatBFits d))
    (henc : ∀ a low, encode (make a low d) = formatB op a low d) (h : decodeFormatB make w d = .ok i) :
    i.wf = true ∧ encode i = .command w d := by
  unfold decodeFormatB at h
  split at h
  · rename_i hd
    cases h
    refine ⟨?_, (henc _ _).trans (formatB_word hop hd)⟩
    have hn := (CommandWord.n w).isLt
    rw [hwf, decide_eq_true_iff, Instr.formatBFits, hd]
    exact hn
  · cases h

/-- A Format R word is the encoding of its fields (R72). -/
theorem formatR_word {w : CommandWord} {op : BitVec 8} (hop : CommandWord.op w = op) :
    formatR op (CommandWord.r w) (CommandWord.v w) = .command w [] := by rw [formatR, ← hop, formatR_fields]

/-- What is read from a command is well-formed, and its encoding is the command: without the data, if it has Format R. -/
theorem encode_of_decodeCommand {w : CommandWord} {d : Bytes} {i : Instr} (h : decodeCommand w d = .ok i) :
    i.wf = true ∧
      encode i = .command w (if CommandWord.op w = 0x05 ∨ CommandWord.op w = 0x06 then [] else d) := by
  unfold decodeCommand at h
  split_ifs at h with h1 h2 h3 h4 h5 h6
  · rw [if_neg (by simp [h1])]
    exact encode_of_decodeFormatB h1 (fun _ _ => rfl) (fun _ _ => rfl) h
  · rw [if_neg (by simp [h2])]
    exact encode_of_decodeFormatB h2 (fun _ _ => rfl) (fun _ _ => rfl) h
  · rw [if_neg (by simp [h3])]
    exact encode_of_decodeFormatB h3 (fun _ _ => rfl) (fun _ _ => rfl) h
  · rw [if_neg (by simp [h4])]
    exact encode_of_decodeFormatB h4 (fun _ _ => rfl) (fun _ _ => rfl) h
  · cases h
    rw [if_pos (.inl h5)]
    exact ⟨rfl, formatR_word h5⟩
  · cases h
    rw [if_pos (.inr h6)]
    exact ⟨rfl, formatR_word h6⟩

/-- Settles O2: a command is the encoding of its fields, and an accepted buffer is the frame that was read. -/
theorem encodeOfDecodeIsThePresentation : Obligations.EncodeOfDecodeIsThePresentation := by
  intro w i h
  cases w with
  | command w d => exact encode_of_decodeCommand h
  | buffer raw =>
    obtain ⟨fr, hf, rfl⟩ := decode_buffer_eq_ok h
    refine ⟨Frame.wf_toInstr (decodeFrame_payload_length hf), ?_⟩
    dsimp only
    rw [Frame.encode_toInstr, ← buildFrame_of_decodeFrame hf]

/-! ## Command words by number (R72, R75) -/

/-- `op` as a number of the word. -/
theorem op_eq_iff {w : CommandWord} {op : BitVec 8} : CommandWord.op w = op ↔ w.toNat / 2 ^ 40 = op.toNat := by
  rw [← BitVec.toNat_inj, op_toNat]

/-- `op` 0 and `op` 7 and above are reserved (R77). -/
theorem decode_of_reserved_op {w : CommandWord} (d : Bytes) (h : w.toNat / 2 ^ 40 = 0 ∨ 7 ≤ w.toNat / 2 ^ 40) :
    decode (.command w d) = .error (.reservedOpcode (CommandWord.op w)) := by
  have hne (op : BitVec 8) (h1 : 1 ≤ op.toNat) (h6 : op.toNat ≤ 6) : CommandWord.op w ≠ op := by
    rw [ne_eq, op_eq_iff]; omega
  simp only [decode, decodeCommand, hne _, BitVec.reduceToNat, Nat.reduceLeDiff, ↓reduceIte]

/-- The `op` of a Format B command selects its reader. -/
theorem decode_of_formatB_op {w : CommandWord} {d : Bytes} (h1 : 1 ≤ w.toNat / 2 ^ 40) (h4 : w.toNat / 2 ^ 40 ≤ 4) :
    ∃ make, decode (.command w d) = decodeFormatB make w d := by
  obtain hop | hop | hop | hop : CommandWord.op w = 1 ∨ CommandWord.op w = 2 ∨ CommandWord.op w = 3 ∨
      CommandWord.op w = 4 := by
    simp only [op_eq_iff, BitVec.reduceToNat, BitVec.ofNat_eq_ofNat]; omega
  all_goals simp only [decode, decodeCommand, hop]; exact ⟨_, rfl⟩

/-- Settles O3: the place of each field, and the reader that `op` selects. -/
theorem commandWordFieldsAndReservedOpcodes : Obligations.CommandWordFieldsAndReservedOpcodes := by
  intro w d
  dsimp only
  rw [← n_toNat, ← a_eq, ← reserved_eq, ← r_eq, ← v_eq]
  have hop {op : BitVec 8} (h : w.toNat / 2 ^ 40 = op.toNat) : CommandWord.op w = op := op_eq_iff.mpr h
  refine ⟨fun hd => ⟨fun h => ?_, fun h => ?_, fun h => ?_, fun h => ?_⟩, fun h => ?_, fun h => ?_, fun h => ?_⟩
  · simp only [decode, decodeCommand, decodeFormatB, hop (op := 1) h, hd]; rfl
  · simp only [decode, decodeCommand, decodeFormatB, hop (op := 2) h, hd]; rfl
  · simp only [decode, decodeCommand, decodeFormatB, hop (op := 3) h, hd]; rfl
  · simp only [decode, decodeCommand, decodeFormatB, hop (op := 4) h, hd]; rfl
  · simp only [decode, decodeCommand, hop (op := 5) h]; rfl
  · simp only [decode, decodeCommand, hop (op := 6) h]; rfl
  · rw [decode_of_reserved_op d h, ← op_toNat, BitVec.ofNat_toNat, BitVec.setWidth_eq]

/-- Settles O4: the decoder at eight closed presentations, the checksums included. -/
theorem writtenOutEncodingsDecode : Obligations.WrittenOutEncodingsDecode := by
  unfold Obligations.WrittenOutEncodingsDecode
  decide +kernel

end Sys2Proof

namespace Sys2Proof.Machine

/-- Settles O5: the fields of the response word add up in their places. -/
theorem responseWordLayout : Obligations.ResponseWordLayout := by
  intro err val
  refine ⟨?_, rfl, rfl, rfl, rfl, rfl, rfl, rfl, rfl⟩
  rw [responseWord, toNat_append_eq_add, toNat_append_eq_add]
  simp

end Sys2Proof.Machine
end

section
/-! PROOF of the rest of the family 40_integrity.md: worked values of the checksum (R86, R87), single-bit errors (R91) and
the verifier that runs over the checksum too (R89). -/

namespace Sys2Proof

/-- Settles O6: three closed values of the checksum. -/
theorem crcCheckValues : Obligations.CrcCheckValues := by
  unfold Obligations.CrcCheckValues
  decide +kernel

/-- Settles O7: a flipped bit is a changed byte. -/
theorem crcDetectsEverySingleBitError : Obligations.CrcDetectsEverySingleBitError :=
  fun _ _ _ hi hj => crc16_set_ne hi (xor_twoPow_ne _ hj)

/-- A shift adds the polynomial only when bit 15 is set. -/
theorem crcShift_of_lt {c : Crc} (h : c.toNat < 2 ^ 15) : crcShift c = c <<< 1 :=
  if_neg (by rw [BitVec.getLsbD, Nat.testBit_lt_two_pow h]; decide)

/-- As long as no 1 reaches bit 15, shifting is all that happens. -/
theorem crcShifts_of_lt {n : Nat} {c : Crc} (h : c.toNat * 2 ^ n < 2 ^ 16) : crcShifts n c = c <<< n := by
  induction n generalizing c with
  | zero => simp [crcShifts]
  | succ n ih =>
    have hone : 1 ≤ 2 ^ n := Nat.one_le_two_pow
    have hlt : c.toNat < 2 ^ 15 := by rw [Nat.pow_succ] at h; nlinarith
    have hdouble : (c <<< 1).toNat = c.toNat * 2 := by
      rw [BitVec.toNat_shiftLeft, Nat.shiftLeft_eq]; omega
    rw [crcShifts, crcShift_of_lt hlt, ih (by rw [hdouble, Nat.mul_assoc, ← Nat.pow_succ']; exact h),
      Nat.add_comm n 1, BitVec.shiftLeft_add]

/-- A register is its low byte and its high byte, one place up. -/
theorem xor_hiByte (c : Crc) : c ^^^ ((hiByte c).zeroExtend 16 <<< 8) = (loByte c).zeroExtend 16 := by
  apply BitVec.eq_of_getLsbD_eq
  intro i hi
  simp only [hiByte, loByte, BitVec.getLsbD_xor, BitVec.getLsbD_shiftLeft, BitVec.getLsbD_setWidth,
    BitVec.zeroExtend, BitVec.getLsbD_extractLsb']
  by_cases h : i < 8
  · simp [h, hi]
  · simp [h, hi, show i - 8 < 8 by omega, show i - 8 < 16 by omega, show 8 + (i - 8) = i by omega]

/-- Running over its own value, high byte first, takes the register to 0: the first byte leaves the low byte, which eight
shifts move up without a reduction, and the second cancels it. -/
theorem crcFrom_self (c : Crc) : crcFrom c [hiByte c, loByte c] = 0 := by
  have hlow : ((loByte c).zeroExtend 16).toNat * 2 ^ 8 < 2 ^ 16 := by
    have hbyte := (loByte c).isLt
    rw [BitVec.zeroExtend, BitVec.toNat_setWidth]; omega
  calc crcFrom c [hiByte c, loByte c]
      = crcByte (crcShifts 8 (c ^^^ ((hiByte c).zeroExtend 16 <<< 8))) (loByte c) := rfl
    _ = crcByte ((loByte c).zeroExtend 16 <<< 8) (loByte c) := by rw [xor_hiByte, crcShifts_of_lt hlow]
    _ = crcShifts 8 0 := by rw [crcByte, BitVec.xor_self]; rfl
    _ = 0 := by decide

/-- Settles O8: from different registers the same two bytes lead to different ones, and the checksum's own lead to 0. -/
theorem crcResidueIsZeroExactlyForTheChecksum : Obligations.CrcResidueIsZeroExactlyForTheChecksum := by
  intro covered c
  have happend : crc16 (covered ++ [hiByte c, loByte c]) = crcFrom (crc16 covered) [hiByte c, loByte c] :=
    crcFrom_append ..
  rw [happend]
  constructor
  · intro h
    exact (crcFrom_injective _ (h.trans (crcFrom_self c).symm)).symm
  · rintro rfl
    exact crcFrom_self _

end Sys2Proof
end

section
/-! PROOF of what every step keeps and what it may change (10_state.md R14, R19, R33; 20_memory.md R41). The state is
taken in parts, the identity, the configuration, the transmit buffer and the decode unit, because almost every transition
touches one of them only; one inversion lemma for each part says which events change it and how. -/

namespace Sys2Proof.Machine

/-! ## The parts of a state -/

/-- What no command can write: the parameters and `DEVID` (R9, R14). -/
def State.identity (s : State) : Params × DeviceId := (s.params, s.devid)

/-- The registers that WRREG writes (R16 to R18). -/
def State.configuration (s : State) : BitVec 8 × BitVec 32 × Bool := (s.maxRetry, s.timeout, s.autoAck)

/-- The transmit buffer and its length (R24). -/
def State.txUnit (s : State) : Memory × BitVec 9 := (s.txf, s.txLen)

/-- `RXP` and the registers of the decode unit (R25 to R27). -/
def State.rxUnit (s : State) : Memory × BitVec 8 × DeviceId × DeviceId × Byte × Bool × ErrCode × Bool :=
  (s.rxp, s.rxLen, s.rxSrc, s.rxDst, s.rxSeq, s.rxValid, s.rxErr, s.rxAck)

section parts
variable {s t : State}

theorem State.identity_eq_iff : t.identity = s.identity ↔ t.params = s.params ∧ t.devid = s.devid := by
  simp [State.identity]

theorem State.configuration_eq_iff : t.configuration = s.configuration ↔
    t.maxRetry = s.maxRetry ∧ t.timeout = s.timeout ∧ t.autoAck = s.autoAck := by
  simp [State.configuration]

theorem State.txUnit_eq_iff : t.txUnit = s.txUnit ↔ t.txf = s.txf ∧ t.txLen = s.txLen := by
  simp [State.txUnit]

theorem State.rxUnit_eq_iff : t.rxUnit = s.rxUnit ↔
    t.rxp = s.rxp ∧ t.rxLen = s.rxLen ∧ t.rxSrc = s.rxSrc ∧ t.rxDst = s.rxDst ∧ t.rxSeq = s.rxSeq ∧
      t.rxValid = s.rxValid ∧ t.rxErr = s.rxErr ∧ t.rxAck = s.rxAck := by
  simp [State.rxUnit]

end parts

section operations
variable {s u : State} {dst : DeviceId} {p f : Bytes} {r : Reg} {v : Value}

theorem State.encode_identity (h : s.encode dst p = some (f, u)) : u.identity = s.identity := by
  obtain ⟨-, -, heq, -⟩ := State.encode_eq_some h
  rw [heq]
  rfl

theorem State.encode_configuration (h : s.encode dst p = some (f, u)) : u.configuration = s.configuration := by
  obtain ⟨-, -, heq, -⟩ := State.encode_eq_some h
  rw [heq]
  rfl

theorem State.encode_rxUnit (h : s.encode dst p = some (f, u)) : u.rxUnit = s.rxUnit := by
  obtain ⟨-, -, heq, -⟩ := State.encode_eq_some h
  rw [heq]
  rfl

theorem State.writeReg_identity (h : s.writeReg r v = some u) : u.identity = s.identity := by
  rw [State.writeReg_eq h]
  rfl

theorem State.writeReg_txUnit (h : s.writeReg r v = some u) : u.txUnit = s.txUnit := by
  rw [State.writeReg_eq h]
  rfl

theorem State.writeReg_rxUnit (h : s.writeReg r v = some u) : u.rxUnit = s.rxUnit := by
  rw [State.writeReg_eq h]
  rfl

end operations

/-! ## What an event does to each part -/

/-- No event but `Reset` touches the identity (R14). -/
theorem Transition.identity_eq {e : Event} {s t : State} (h : Transition e s t) (he : e ≠ .reset) :
    t.identity = s.identity := by
  cases h with
  | reset => exact absurd rfl he
  | encode a low d f s u _ hu => exact (State.encode_identity hu :)
  | sendOk a low d f s u _ hu _ => exact (State.encode_identity hu :)
  | sendFail a low d f s u _ hu _ => exact (State.encode_identity hu :)
  | deliverAck b fr s u f _ _ _ _ hu => exact (State.encode_identity hu :)
  | wrreg w d r v s u _ _ hu => exact (State.writeReg_identity hu :)
  | retry s f _ _ _ _ => split <;> rfl
  | still | answer | decodeFrame | decodeReject | sendLong | reject | drop | deliver | acked | tickDown | exhausted
  | cancelled => rfl

/-- `t` comes from `s` by a WRREG command that writes (R162). -/
def State.Wrote (e : Event) (s t : State) : Prop :=
  s.arq = .idle ∧ ∃ w d r v u, e = .cmd w d ∧ CommandWord.op w = 0x06 ∧ s.writeReg r v = some u ∧
    t = u.respond .success 0 []

/-- The configuration changes by a WRREG in `Idle` only, `Reset` apart (R19). -/
theorem Transition.configuration_eq_or_wrote {e : Event} {s t : State} (h : Transition e s t) (he : e ≠ .reset) :
    t.configuration = s.configuration ∨ State.Wrote e s t := by
  cases h with
  | reset => exact absurd rfl he
  | wrreg w d r v s u hs hop hu => exact .inr ⟨hs, w, d, r, v, u, rfl, hop, hu, rfl⟩
  | encode a low d f s u _ hu => exact .inl (State.encode_configuration hu :)
  | sendOk a low d f s u _ hu _ => exact .inl (State.encode_configuration hu :)
  | sendFail a low d f s u _ hu _ => exact .inl (State.encode_configuration hu :)
  | deliverAck b fr s u f _ _ _ _ hu => exact .inl (State.encode_configuration hu :)
  | retry s f _ _ _ _ => split <;> exact .inl rfl
  | still | answer | decodeFrame | decodeReject | sendLong | reject | drop | deliver | acked | tickDown | exhausted
  | cancelled => exact .inl rfl

/-- `t` holds in `TXF` the frame that an `encode` has built with the number after the one in `s`, and that number in
`SEQ` (R99). -/
def State.Encoded (s t : State) : Prop :=
  ∃ fr : Frame, fr.payload.length ≤ 255 ∧ fr.seq = t.seq ∧ t.seq = s.seq + 1 ∧ t.txf = Memory.live (buildFrame fr) ∧
    t.txLen.toNat = 10 + fr.payload.length

/-- Where an event runs `encode` with the `SEQ` it found and keeps what `encode` wrote, the frame stands in `TXF`. -/
theorem State.encoded_of_encode {s t u v : State} {dst : DeviceId} {p f : Bytes} (h : v.encode dst p = some (f, u))
    (hv : v.seq = s.seq) (hseq : t.seq = u.seq) (ht : t.txUnit = u.txUnit) : s.Encoded t := by
  obtain ⟨hp, rfl, heq, hlive, hlen, -⟩ := State.encode_eq_some h
  obtain ⟨htxf, htxLen⟩ := State.txUnit_eq_iff.mp ht
  have hu : u.seq = s.seq + 1 := by rw [heq, ← hv]
  exact ⟨⟨v.devid, dst, v.seq + 1, p⟩, hp, by rw [hseq, hu, hv], by rw [hseq, hu], htxf.trans hlive,
    by rw [htxLen, hlen]⟩

/-- The transmit buffer changes by `encode` only, `Reset` apart (R41). -/
theorem Transition.txUnit_eq_or_encoded {e : Event} {s t : State} (h : Transition e s t) (he : e ≠ .reset) :
    t.txUnit = s.txUnit ∨ s.Encoded t := by
  cases h with
  | reset => exact absurd rfl he
  | encode a low d f s u _ hu => exact .inr (State.encoded_of_encode hu rfl rfl rfl)
  | sendOk a low d f s u _ hu _ => exact .inr (State.encoded_of_encode hu rfl rfl rfl)
  | sendFail a low d f s u _ hu _ => exact .inr (State.encoded_of_encode hu rfl rfl rfl)
  | deliverAck b fr s u f _ _ _ _ hu => exact .inr (State.encoded_of_encode hu rfl rfl rfl)
  | wrreg w d r v s u _ _ hu => exact .inl (State.writeReg_txUnit hu :)
  | retry s f _ _ _ _ => split <;> exact .inl rfl
  | still | answer | decodeFrame | decodeReject | sendLong | reject | drop | deliver | acked | tickDown | exhausted
  | cancelled => exact .inl rfl

/-- The event runs `decode_rec`: a received buffer or a DECODE command (R113). -/
def Event.Decodes (e : Event) : Prop := (∃ b, e = .rxBytes b) ∨ ∃ w d, e = .cmd w d ∧ CommandWord.op w = 0x03

theorem Event.decodes_rxBytes (b : Bytes) : Event.Decodes (.rxBytes b) := .inl ⟨b, rfl⟩

theorem Event.decodes_cmd {w : CommandWord} (h : CommandWord.op w = 0x03) (d : Bytes) : Event.Decodes (.cmd w d) :=
  .inr ⟨w, d, rfl, h⟩

/-- The decode unit of `t` is what `decode_rec` makes of the one in `s` (R115): a frame recorded, or a rejection. -/
def State.Decoded (s t : State) : Prop :=
  (∃ b fr, decodeFrame b = .ok fr ∧ t.rxUnit = (s.recordFrame fr).rxUnit) ∨
    ∃ b e, decodeFrame b = .error e ∧ t.rxUnit = (s.recordReject e).rxUnit

/-- The decode unit changes by `decode_rec` only, `Reset` apart (R41, R113). -/
theorem Transition.rxUnit_eq_or_decoded {e : Event} {s t : State} (h : Transition e s t) (he : e ≠ .reset) :
    t.rxUnit = s.rxUnit ∨ (e.Decodes ∧ s.Decoded t) := by
  cases h with
  | reset => exact absurd rfl he
  | decodeFrame w d fr s _ _ hop hd => exact .inr ⟨Event.decodes_cmd hop d, .inl ⟨d, fr, hd, rfl⟩⟩
  | decodeReject w d e s _ hop hd => exact .inr ⟨Event.decodes_cmd hop d, .inr ⟨d, e, hd, rfl⟩⟩
  | reject b e s _ hd => exact .inr ⟨Event.decodes_rxBytes b, .inr ⟨b, e, hd, rfl⟩⟩
  | drop b fr s hd _ => exact .inr ⟨Event.decodes_rxBytes b, .inl ⟨b, fr, hd, rfl⟩⟩
  | deliver b fr s _ hd _ _ => exact .inr ⟨Event.decodes_rxBytes b, .inl ⟨b, fr, hd, rfl⟩⟩
  | acked b fr s _ hd _ => exact .inr ⟨Event.decodes_rxBytes b, .inl ⟨b, fr, hd, rfl⟩⟩
  | deliverAck b fr s u f _ hd _ _ hu =>
    exact .inr ⟨Event.decodes_rxBytes b, .inl ⟨b, fr, hd, (State.encode_rxUnit hu :)⟩⟩
  | encode a low d f s u _ hu => exact .inl (State.encode_rxUnit hu :)
  | sendOk a low d f s u _ hu _ => exact .inl (State.encode_rxUnit hu :)
  | sendFail a low d f s u _ hu _ => exact .inl (State.encode_rxUnit hu :)
  | wrreg w d r v s u _ _ hu => exact .inl (State.writeReg_rxUnit hu :)
  | retry s f _ _ _ _ => split <;> exact .inl rfl
  | still | answer | sendLong | tickDown | exhausted | cancelled => exact .inl rfl

/-- A step with an input to take makes the transition of its event, from the state with the input taken. -/
theorem step_transition_of_inbox {s t : State} {e : Event} {ok : Bool} {rest : List Input}
    (hin : s.inbox = ⟨e, ok⟩ :: rest) (h : step s = .next t) : Transition e (s.takeInput ⟨e, ok⟩ rest) t :=
  onEvent_transition ((step_of_inbox hin).symm.trans h)

/-- Settles O48: the identity stays, and the configuration changes by a WRREG only. -/
theorem onlyWrregChangesTheConfiguration : Obligations.OnlyWrregChangesTheConfiguration := by
  intro s t e ok rest hin h
  have htr := step_transition_of_inbox hin h
  by_cases he : e = .reset
  · subst he
    rw [step_of_reset hin] at h
    cases h
    exact ⟨rfl, fun hne => absurd rfl hne⟩
  · obtain ⟨hparams, hdevid⟩ := State.identity_eq_iff.mp (htr.identity_eq he)
    refine ⟨hparams, fun _ => ⟨hdevid, fun hchange => ?_⟩⟩
    obtain hsame | ⟨hidle, w, d, -, -, -, rfl, hop, -⟩ := htr.configuration_eq_or_wrote he
    · obtain ⟨hmax, htime, hauto⟩ := State.configuration_eq_iff.mp hsame
      exact absurd hchange (by simp [hmax, htime, hauto])
    · exact ⟨hidle, w, d, rfl, op_eq_iff.mp hop⟩

/-- Settles O49: an `encode` moves `SEQ`, and `decode_rec` is run by a received buffer or a DECODE. -/
theorem buffersHaveOneWriterEach : Obligations.BuffersHaveOneWriterEach := by
  intro s t e ok rest hin h he
  have htr := step_transition_of_inbox hin h
  refine ⟨fun hseq => ?_, fun hrx hcmd => ?_⟩
  · obtain hsame | ⟨-, -, -, hnext, -⟩ := htr.txUnit_eq_or_encoded he
    · exact State.txUnit_eq_iff.mp hsame
    · have hmove : s.seq = s.seq + 1 := hseq.symm.trans hnext
      exact absurd hmove (by bv_omega)
  · obtain hsame | ⟨⟨b, rfl⟩ | ⟨w, d, rfl, hop⟩, -⟩ := htr.rxUnit_eq_or_decoded he
    · obtain ⟨hp, hlen, hsrc, hdst, hseq, hvalid, herr, hack⟩ := State.rxUnit_eq_iff.mp hsame
      exact ⟨hp, hlen, hsrc, hdst, hseq, by rw [State.rxstatWord, hvalid, herr, hack]; rfl⟩
    · exact absurd rfl (hrx b)
    · exact absurd hop (hcmd w d rfl)

/-! ## The invariant in parts (R33) -/

/-- R9 and R33 (b), (h): legal parameters, the identity, and a positive timeout. -/
structure State.ConfigurationInv (s : State) : Prop where
  params_legal : s.params.Legal
  devid_eq : s.devid = s.params.deviceId
  timeout_pos : 1 ≤ s.timeout.toNat

/-- R33 (e) and U16: `TXF` is empty or holds a frame, and holds its live bytes alone. -/
structure State.TxInv (s : State) : Prop where
  tx_frame : s.txLen = 0 ∨ s.HoldsFrame
  tx_live : ∀ k, s.txLen.toNat ≤ k → Memory.read s.txf k = none
  txf_wf : Memory.wf txfSize s.txf

/-- R25, R27, R33 (f) and U16: the registers of the decode unit agree, and `RXP` holds the payload alone. -/
structure State.RxInv (s : State) : Prop where
  rx_codes : s.rxErr ∈ [ErrCode.success, .malformedFrame, .checksumMismatch]
  rx_valid : s.rxValid = true → s.rxErr = .success
  rx_ack : s.rxAck = true → s.rxValid = true ∧ s.rxLen = 2 ∧ Memory.read s.rxp 0 = some 0x06
  rx_live : ∀ k, s.rxLen.toNat ≤ k → Memory.read s.rxp k = none
  rx_payload : ∃ p, s.rxPayload = .ok p
  rxp_wf : Memory.wf rxpSize s.rxp

/-- The codes `RESULT` can hold (R21). -/
def resultCodes : List ErrCode := [.success, .payloadTooLarge, .transportFailure, .ackTimeout, .retriesExhausted]

/-- R21 and R33 (a), (c), (d): LLC rests, and what it waits for is within its bounds and outstanding. -/
structure State.AttemptInv (s : State) : Prop where
  rests : s.arq = .idle ∨ s.arq = .awaitingAck
  wait_bounds : s.arq = .awaitingAck → 1 ≤ s.waitRem.toNat ∧ s.waitRem.toNat ≤ s.timeout.toNat
  attempts_le : s.arq = .awaitingAck → s.attempts.toNat ≤ s.maxRetry.toNat
  outstanding : s.arq = .awaitingAck → s.HoldsFrame ∧ Memory.read s.txf 5 = some s.outSeq
  result_codes : s.resultErr ∈ resultCodes

/-- The invariant is that of its four parts. -/
theorem State.inv_iff {s : State} : s.Inv ↔ s.ConfigurationInv ∧ s.TxInv ∧ s.RxInv ∧ s.AttemptInv :=
  ⟨fun h => ⟨⟨h.params_legal, h.devid_eq, h.timeout_pos⟩, ⟨h.tx_frame, h.tx_live, h.txf_wf⟩,
      ⟨h.rx_codes, h.rx_valid, h.rx_ack, h.rx_live, h.rx_payload, h.rxp_wf⟩,
      ⟨h.rests, h.wait_bounds, h.attempts_le, h.outstanding, h.result_codes⟩⟩,
    fun ⟨hc, ht, hr, ha⟩ =>
      { rests := ha.rests, params_legal := hc.params_legal, devid_eq := hc.devid_eq, timeout_pos := hc.timeout_pos
        wait_bounds := ha.wait_bounds, attempts_le := ha.attempts_le, outstanding := ha.outstanding
        tx_frame := ht.tx_frame, result_codes := ha.result_codes, rx_codes := hr.rx_codes, rx_valid := hr.rx_valid
        rx_ack := hr.rx_ack, tx_live := ht.tx_live, rx_live := hr.rx_live, rx_payload := hr.rx_payload
        txf_wf := ht.txf_wf, rxp_wf := hr.rxp_wf }⟩

/-- Taking an input, and resting, touch nothing the invariant speaks of. -/
theorem State.Inv.of_io {s : State} (h : s.Inv) (inbox : List Input) (ok : Bool) (out : List Output) :
    ({ s with inbox := inbox, txOk := ok, out := out } : State).Inv :=
  { rests := h.rests, params_legal := h.params_legal, devid_eq := h.devid_eq, timeout_pos := h.timeout_pos
    wait_bounds := h.wait_bounds, attempts_le := h.attempts_le, outstanding := h.outstanding, tx_frame := h.tx_frame
    result_codes := h.result_codes, rx_codes := h.rx_codes, rx_valid := h.rx_valid, rx_ack := h.rx_ack
    tx_live := h.tx_live, rx_live := h.rx_live, rx_payload := h.rx_payload, txf_wf := h.txf_wf, rxp_wf := h.rxp_wf }

/-! ## Reset (R34) -/

/-- `TIMEOUT` after a reset does not wrap, because the parameter is legal (R9). -/
theorem State.resetWith_timeout_toNat {p : Params} (h : p.Legal) :
    (State.resetWith p).timeout.toNat = 2 * p.ticksPerUnit := by
  show (BitVec.ofNat 32 (2 * p.ticksPerUnit)).toNat = _
  rw [BitVec.toNat_ofNat, Nat.mod_eq_of_lt h.2]

/-- The state a reset leaves meets the invariant: nothing is outstanding and both buffers are empty. -/
theorem State.inv_resetWith {p : Params} (h : p.Legal) : (State.resetWith p).Inv := by
  have hpos := h.1
  have noWait {P : Prop} (ha : (State.resetWith p).arq = .awaitingAck) : P := nomatch ha
  exact
    { rests := .inl rfl, params_legal := h, devid_eq := rfl
      timeout_pos := by rw [State.resetWith_timeout_toNat h]; omega
      wait_bounds := noWait, attempts_le := noWait, outstanding := noWait, tx_frame := .inl rfl
      result_codes := .head _, rx_codes := .head _, rx_valid := fun _ => rfl, rx_ack := nofun
      tx_live := fun _ _ => rfl, rx_live := fun _ _ => rfl, rx_payload := ⟨[], rfl⟩
      txf_wf := ⟨.nil, nofun⟩, rxp_wf := ⟨.nil, nofun⟩ }

/-- The configured parameters are legal (R9). -/
theorem configParams_legal : Config.params.Legal := by
  have hlt := Config.ticksPerUnitLessOne.isLt
  constructor <;> simp only [Config.params, Config.ticksPerUnit] <;> omega

/-- Settles O41: the configured parameters are legal. -/
theorem resetMeetsTheInvariant : Obligations.ResetMeetsTheInvariant := State.inv_resetWith configParams_legal

/-- Settles O40: the registers of the reset state, the packed ones from the reset values of their fields. -/
theorem resetStateRegisters : Obligations.ResetStateRegisters := by
  have htimeout : State.reset.timeout.toNat = 2 * State.reset.params.ticksPerUnit :=
    State.resetWith_timeout_toNat configParams_legal
  refine ⟨rfl, rfl, configParams_legal, htimeout, State.Inv.timeout_pos resetMeetsTheInvariant, rfl, rfl, ?ctrl,
    ?status, ?result, rfl, rfl, rfl, rfl, ?rxstat, rfl, rfl, rfl, rfl⟩
  case ctrl => exact State.ctrlWord_eq_one rfl
  case status => exact State.statusWord_eq_zero rfl rfl rfl
  case result => exact State.resultWord_eq_zero rfl
  case rxstat => exact State.rxstatWord_eq_zero rfl rfl rfl

/-! ## Every event keeps each part of the invariant -/

/-- A register that is written keeps `TIMEOUT` positive (R164). -/
theorem State.writeReg_timeout_pos {s u : State} {r : Reg} {v : Value} (h : s.writeReg r v = some u)
    (hs : 1 ≤ s.timeout.toNat) : 1 ≤ u.timeout.toNat := by
  cases r <;> simp only [State.writeReg, Option.ite_none_right_eq_some, Option.some.injEq, reduceCtorEq] at h
  case maxRetry => rwa [← h.2]
  case timeout =>
    obtain ⟨hv, rfl⟩ := h
    show 1 ≤ v.toNat
    bv_omega
  case ctrl => rwa [← h]

/-- The configuration part is kept. -/
theorem Transition.configurationInv {e : Event} {s t : State} (h : Transition e s t) (he : e ≠ .reset)
    (hs : s.ConfigurationInv) : t.ConfigurationInv := by
  obtain ⟨hparams, hdevid⟩ := State.identity_eq_iff.mp (h.identity_eq he)
  refine ⟨by rw [hparams]; exact hs.params_legal, by rw [hparams, hdevid]; exact hs.devid_eq, ?_⟩
  obtain hsame | ⟨-, w, d, r, v, u, -, -, hu, rfl⟩ := h.configuration_eq_or_wrote he
  · obtain ⟨-, htime, -⟩ := State.configuration_eq_iff.mp hsame
    rw [htime]
    exact hs.timeout_pos
  · exact (State.writeReg_timeout_pos hu hs.timeout_pos :)

/-- Whether a frame is held depends on the transmit buffer only. -/
theorem State.HoldsFrame.congr {s t : State} (h : s.HoldsFrame) (ht : t.txUnit = s.txUnit) : t.HoldsFrame := by
  obtain ⟨htxf, htxLen⟩ := State.txUnit_eq_iff.mp ht
  rwa [State.HoldsFrame, State.txFrame, htxf, htxLen]

/-- The frame an `encode` has left is a frame (R33 e). -/
theorem State.Encoded.holdsFrame {s t : State} (h : s.Encoded t) : t.HoldsFrame := by
  obtain ⟨fr, hp, -, -, hlive, hlen⟩ := h
  have hframe := buildFrame_length fr
  refine ⟨by omega, by omega, buildFrame fr, fr, ?_, ?_, byteAt_buildFrame_header fr, ?_, decodeFrame_buildFrame hp⟩
  · rw [State.txFrame, hlive, hlen, ← hframe]
    exact Memory.fetchBytes_live (by simp only [txfSize]; omega)
  · rw [hlen, toNat_byteAt_buildFrame_len hp]
  · rw [hlen, show 10 + fr.payload.length - 1 = 9 + fr.payload.length by omega, byteAt_buildFrame_footer]
    rfl

/-- The sequence byte of the frame an `encode` has left is `SEQ` (R33 d). -/
theorem State.Encoded.read_seq {s t : State} (h : s.Encoded t) : Memory.read t.txf 5 = some t.seq := by
  obtain ⟨fr, -, hseq, -, hlive, -⟩ := h
  rw [hlive, Memory.read_live, ← hseq]
  rfl

/-- An `encode` leaves `TXF` with the frame's bytes alone. -/
theorem State.Encoded.txInv {s t : State} (h : s.Encoded t) : t.TxInv := by
  refine ⟨.inr h.holdsFrame, ?_, ?_⟩
  all_goals obtain ⟨fr, hp, -, -, hlive, hlen⟩ := h
  all_goals have hframe := buildFrame_length fr
  · intro k hk
    rw [hlive, Memory.read_live, List.getElem?_eq_none (by omega)]
  · rw [hlive]
    exact Memory.wf_live (by simp only [txfSize]; omega)

/-- The transmit part is kept. -/
theorem Transition.txInv {e : Event} {s t : State} (h : Transition e s t) (he : e ≠ .reset) (hs : s.TxInv) :
    t.TxInv := by
  obtain hsame | hencoded := h.txUnit_eq_or_encoded he
  · obtain ⟨htxf, htxLen⟩ := State.txUnit_eq_iff.mp hsame
    exact ⟨hs.tx_frame.imp (htxLen.trans ·) (·.congr hsame), by rw [htxf, htxLen]; exact hs.tx_live,
      by rw [htxf]; exact hs.txf_wf⟩
  · exact hencoded.txInv

/-- The receive part depends on the decode unit only. -/
theorem State.RxInv.congr {s t : State} (h : s.RxInv) (ht : t.rxUnit = s.rxUnit) : t.RxInv := by
  obtain ⟨hp, hlen, -, -, -, hvalid, herr, hack⟩ := State.rxUnit_eq_iff.mp ht
  exact
    { rx_codes := by rw [herr]; exact h.rx_codes
      rx_valid := by rw [hvalid, herr]; exact h.rx_valid
      rx_ack := by rw [hack, hvalid, hlen, hp]; exact h.rx_ack
      rx_live := by rw [hlen, hp]; exact h.rx_live
      rx_payload := by rw [State.rxPayload, hlen, hp]; exact h.rx_payload
      rxp_wf := by rw [hp]; exact h.rxp_wf }

/-- A recorded frame leaves the decode unit consistent (R115). -/
theorem State.rxInv_recordFrame (s : State) {fr : Frame} (h : fr.payload.length ≤ 255) : (s.recordFrame fr).RxInv := by
  obtain ⟨hpayload, hwf⟩ := s.recordFrame_rxPayload h
  refine ⟨.head _, fun _ => rfl, fun hack => ?_, fun k hk => ?_, ⟨_, hpayload⟩, hwf⟩
  · obtain ⟨hlen, hmark⟩ := Frame.isAck_iff.mp hack
    exact ⟨rfl, by rw [State.recordFrame_rxLen, hlen]; rfl,
      by rw [State.recordFrame_rxp, Memory.read_live, hmark]; rfl⟩
  · rw [State.recordFrame_rxLen, toNat_lengthByte h] at hk
    rw [State.recordFrame_rxp, Memory.read_live, List.getElem?_eq_none hk]

/-- A recorded rejection leaves the decode unit consistent (R115). -/
theorem State.RxInv.recordReject {s : State} (h : s.RxInv) (e : DecodeError) : (s.recordReject e).RxInv :=
  { rx_codes := by cases e <;> simp [rejectCode]
    rx_valid := nofun, rx_ack := nofun, rx_live := h.rx_live, rx_payload := h.rx_payload, rxp_wf := h.rxp_wf }

/-- The receive part is kept. -/
theorem Transition.rxInv {e : Event} {s t : State} (h : Transition e s t) (he : e ≠ .reset) (hs : s.RxInv) :
    t.RxInv := by
  obtain hsame | ⟨-, ⟨b, fr, hd, hrec⟩ | ⟨b, x, -, hrec⟩⟩ := h.rxUnit_eq_or_decoded he
  · exact hs.congr hsame
  · exact (s.rxInv_recordFrame (decodeFrame_payload_length hd)).congr hrec
  · exact (hs.recordReject x).congr hrec

/-- In `Idle` the attempt part is a matter of the code in `RESULT`. -/
theorem State.attemptInv_of_idle {s : State} (h : s.arq = .idle) (hcode : s.resultErr ∈ resultCodes) :
    s.AttemptInv := by
  have noWait {P : Prop} (ha : s.arq = .awaitingAck) : P := nomatch h.symm.trans ha
  exact ⟨.inl h, noWait, noWait, noWait, hcode⟩

/-- During a wait the attempt part is what is outstanding. -/
theorem State.attemptInv_of_awaitingAck {s : State} (h : s.arq = .awaitingAck) (hpos : 1 ≤ s.waitRem.toNat)
    (hmax : s.waitRem.toNat ≤ s.timeout.toNat) (hatt : s.attempts.toNat ≤ s.maxRetry.toNat) (hframe : s.HoldsFrame)
    (hseq : Memory.read s.txf 5 = some s.outSeq) (hcode : s.resultErr ∈ resultCodes) : s.AttemptInv :=
  ⟨.inr h, fun _ => ⟨hpos, hmax⟩, fun _ => hatt, fun _ => ⟨hframe, hseq⟩, hcode⟩

/-- `encode` leaves `RESULT`. -/
theorem State.encode_resultErr {s u : State} {dst : DeviceId} {p f : Bytes} (h : s.encode dst p = some (f, u)) :
    u.resultErr = s.resultErr := by
  obtain ⟨-, -, heq, -⟩ := State.encode_eq_some h
  rw [heq]

/-- `encode` leaves the state of the retry machine. -/
theorem State.encode_arq {s u : State} {dst : DeviceId} {p f : Bytes} (h : s.encode dst p = some (f, u)) :
    u.arq = s.arq := by
  obtain ⟨-, -, heq, -⟩ := State.encode_eq_some h
  rw [heq]

/-- A SEND that has transmitted waits for a full timeout, with the frame it has built outstanding. -/
theorem State.attemptInv_sendOk {s u v : State} {a : BitVec 16} {d f : Bytes} {o : Output}
    (hu : v.encode a d = some (f, u)) (hv : v.configuration = s.configuration) (htime : 1 ≤ s.timeout.toNat) :
    ({ (startAttempt u).emit o with waitRem := s.timeout, arq := .awaitingAck } : State).AttemptInv := by
  let t : State := { (startAttempt u).emit o with waitRem := s.timeout, arq := .awaitingAck }
  have hencoded : v.Encoded t := State.encoded_of_encode hu rfl rfl rfl
  obtain ⟨-, htimeout, -⟩ := State.configuration_eq_iff.mp ((State.encode_configuration hu).trans hv)
  exact State.attemptInv_of_awaitingAck rfl htime (by show _ ≤ u.timeout.toNat; rw [htimeout])
    (Nat.zero_le _) hencoded.holdsFrame hencoded.read_seq (.head _)

/-- The attempt part is kept. -/
theorem Transition.attemptInv {e : Event} {s t : State} (h : Transition e s t) (he : e ≠ .reset)
    (htime : 1 ≤ s.timeout.toNat) (hs : s.AttemptInv) : t.AttemptInv := by
  have idle {t : State} (hidle : t.arq = .idle) (hcode : t.resultErr = s.resultErr) : t.AttemptInv :=
    State.attemptInv_of_idle hidle (hcode ▸ hs.result_codes)
  cases h with
  | reset => exact absurd rfl he
  | still | reject | drop => exact ⟨hs.rests, hs.wait_bounds, hs.attempts_le, hs.outstanding, hs.result_codes⟩
  | answer _ _ _ _ _ hidle | decodeFrame _ _ _ _ _ hidle | decodeReject _ _ _ _ hidle | deliver _ _ _ hidle =>
    exact idle hidle rfl
  | encode a low d f s u hidle hu => exact idle ((State.encode_arq hu).trans hidle) (State.encode_resultErr hu :)
  | deliverAck b fr s u f hidle _ _ _ hu => exact idle ((State.encode_arq hu).trans hidle) (State.encode_resultErr hu :)
  | wrreg w d r v s u hidle _ hu =>
    exact idle (by rw [State.writeReg_eq hu]; exact hidle) (by rw [State.writeReg_eq hu]; rfl)
  | sendLong w d s hidle _ _ => exact State.attemptInv_of_idle hidle (by simp [resultCodes])
  | sendFail | acked | exhausted | cancelled => exact State.attemptInv_of_idle rfl (by simp [resultCodes])
  | sendOk a low d f s u _ hu _ => exact State.attemptInv_sendOk hu rfl htime
  | retry s f ha _ hlt _ =>
    obtain ⟨hframe, hseq⟩ := hs.outstanding ha
    have hatt : (s.attempts + 1).toNat ≤ s.maxRetry.toNat := by bv_omega
    split
    · exact State.attemptInv_of_awaitingAck ha htime le_rfl hatt hframe hseq (by simp [resultCodes])
    · exact State.attemptInv_of_idle rfl (by simp [resultCodes])
  | tickDown s ha hw =>
    obtain ⟨hpos, hmax⟩ := hs.wait_bounds ha
    obtain ⟨hframe, hseq⟩ := hs.outstanding ha
    have hdown : (s.waitRem - 1).toNat = s.waitRem.toNat - 1 := by bv_omega
    have hleft : 1 < s.waitRem.toNat := by bv_omega
    exact State.attemptInv_of_awaitingAck ha (by show 1 ≤ (s.waitRem - 1).toNat; omega)
      (by show (s.waitRem - 1).toNat ≤ s.timeout.toNat; omega) (hs.attempts_le ha) hframe hseq hs.result_codes

/-- Every event keeps the invariant. -/
theorem Transition.inv {e : Event} {s t : State} (h : Transition e s t) (hs : s.Inv) : t.Inv := by
  by_cases he : e = .reset
  · subst he
    cases h with
    | reset => exact (State.inv_resetWith hs.params_legal).of_io _ _ _
    | still _ _ hne => exact absurd rfl hne
  · obtain ⟨hc, ht, hr, ha⟩ := State.inv_iff.mp hs
    exact State.inv_iff.mpr ⟨h.configurationInv he hc, h.txInv he ht, h.rxInv he hr, h.attemptInv he hc.timeout_pos ha⟩

/-- Settles O42: a rest keeps the invariant, and so does the transition of every event. -/
theorem stepKeepsTheInvariant : Obligations.StepKeepsTheInvariant := by
  intro s t hs h
  obtain ⟨-, rfl⟩ | ⟨i, rest, -, htr⟩ := step_transition h
  · exact hs.of_io _ _ _
  · exact htr.inv (hs.of_io _ _ _)

end Sys2Proof.Machine
end

section
/-! PROOF of what a presentation does (20_memory.md R50, R56; 30_encoding.md R77; 43_arq.md R137, R145): that every
instruction completes and what it leaves in the two buffers, byte by byte; that under the invariant every step completes
(R7, R177); which events transmit, and which are answered. -/

namespace Sys2Proof.Machine

/-! ## The step of a presentation -/

/-- The event of a presentation is the presentation handled. -/
theorem onEvent_event (w : Wire) (s : State) : onEvent (Wire.event w) s = onWire w s := by cases w <;> rfl

/-- What decodes is run. -/
theorem onWire_of_decode {w : Wire} {i : Instr} (h : decode w = .ok i) (s : State) : onWire w s = exec i s := by
  simp only [onWire, h]

/-- Settles O36: the event at the head of the inbox is the presentation's. -/
theorem stepRunsTheDecodedInstruction : Obligations.StepRunsTheDecodedInstruction := by
  intro s w ok rest i hin hd
  rw [step_of_inbox hin, onEvent_event, onWire_of_decode hd]
  rfl

/-- In `Idle` a reserved opcode is refused (R77). -/
theorem onWire_of_reserved_op {s : State} (h : s.arq = .idle) {w : CommandWord} (d : Bytes)
    (hop : w.toNat / 2 ^ 40 = 0 ∨ 7 ≤ w.toNat / 2 ^ 40) : onWire (.command w d) s = .next s.refuseCommand := by
  simp only [onWire, decode_of_reserved_op d hop, onUndecoded]
  exact State.whenIdle_of_idle h _

/-- Settles O37: the decoder answers no instruction, and the command is refused. -/
theorem reservedOpcodesAreRefused : Obligations.ReservedOpcodesAreRefused := by
  intro s w d ok rest hidle hin hop
  rw [step_of_inbox hin, onEvent, onWire_of_reserved_op (by exact hidle) d hop]
  rfl

/-- Settles O38: a Format B command is read only with the data its word announces. -/
theorem wrongDataLengthIsAModelRefusal : Obligations.WrongDataLengthIsAModelRefusal := by
  intro s w d ok rest hidle hin h1 h4 hne
  obtain ⟨make, hdecode⟩ := decode_of_formatB_op (d := d) h1 h4
  rw [← n_toNat] at hne
  rw [decodeFormatB, if_neg hne] at hdecode
  rw [step_of_inbox hin, onEvent]
  simp only [onWire, hdecode, onUndecoded]
  exact State.whenIdle_of_idle (by exact hidle) _

/-- Settles O26: outside `Idle` no command has an effect. -/
theorem commandsDuringTheWaitDoNothing : Obligations.CommandsDuringTheWaitDoNothing := by
  intro s w d ok rest hwait hin
  have hbusy : (s.takeInput ⟨.cmd w d, ok⟩ rest).arq ≠ .idle := by simp [hwait]
  rw [step_of_inbox hin, onEvent, onWire_command_busy hbusy]
  rfl

/-- The six rows of the table that the host presents as commands (R74). -/
def Instr.isCommand : Instr → Bool
  | .crc16 _ _ _ | .encode _ _ _ | .decode _ _ _ | .send _ _ _ | .rdreg _ _ | .wrreg _ _ => true
  | .frame _ _ _ _ | .frameAck _ _ _ _ => false

/-- Outside `Idle` a command has no effect (R50, R137). -/
theorem exec_of_not_idle {i : Instr} {s : State} (hi : Instr.isCommand i = true) (h : s.arq ≠ .idle) :
    exec i s = .next s := by
  cases i with
  | frame | frameAck => cases hi
  | crc16 | encode | decode | send | rdreg | wrreg =>
    simp [exec, execCrc16, execEncode, execDecode, execSend, execRdreg, execWrreg, h]

/-! ## The buffers after an instruction (R99, R115, U16) -/

/-- What an ENCODE or a SEND leaves in the buffers of `t`. -/
def State.BuffersAfterEncode (s : State) (a : DeviceId) (data : Bytes) (t : State) : Prop :=
  t.rxp = s.rxp ∧
  (s.arq = .idle ∧ data.length ≤ 255 → ∀ k, Memory.read t.txf k = (buildFrame ⟨s.devid, a, s.seq + 1, data⟩)[k]?) ∧
  (¬ (s.arq = .idle ∧ data.length ≤ 255) → t.txf = s.txf)

/-- Where nothing is encoded, both buffers are kept. -/
theorem State.buffersAfterEncode_of_kept {s t : State} {a : DeviceId} {data : Bytes}
    (h : ¬ (s.arq = .idle ∧ data.length ≤ 255)) (hrx : t.rxp = s.rxp) (htx : t.txf = s.txf) :
    s.BuffersAfterEncode a data t :=
  ⟨hrx, fun hc => absurd hc h, fun _ => htx⟩

/-- The frame that `encode` builds stands in `TXF` alone. -/
theorem State.buffersAfterEncode_of_encode {s v u t : State} {a : DeviceId} {data f : Bytes}
    (hu : v.encode a data = some (f, u)) (hidle : s.arq = .idle) (hid : v.devid = s.devid) (hseq : v.seq = s.seq)
    (hv : v.rxp = s.rxp) (hrx : t.rxp = u.rxp) (htx : t.txf = u.txf) : s.BuffersAfterEncode a data t := by
  obtain ⟨hlen, rfl, heq, hlive, -⟩ := State.encode_eq_some hu
  refine ⟨by rw [hrx, heq, ← hv], fun _ k => ?_, fun hc => absurd ⟨hidle, hlen⟩ hc⟩
  rw [htx, hlive, Memory.read_live, hid, hseq]

/-- ENCODE completes, and leaves its frame in `TXF` or nothing. -/
theorem exec_encode_buffers (a : BitVec 16) (low : BitVec 8) (data : Bytes) (s : State) :
    ∃ t, exec (.encode a low data) s = .next t ∧ s.BuffersAfterEncode a data t := by
  by_cases hidle : s.arq = .idle
  case neg => exact ⟨s, exec_of_not_idle rfl hidle, State.buffersAfterEncode_of_kept (by tauto) rfl rfl⟩
  by_cases hlen : data.length ≤ 255
  · obtain ⟨u, hu, -⟩ := s.encode_spec a hlen
    exact ⟨_, exec_encode_of_some hidle a low hu, State.buffersAfterEncode_of_encode hu hidle rfl rfl rfl rfl rfl⟩
  · exact ⟨_, exec_encode_of_long hidle a low (by omega), State.buffersAfterEncode_of_kept (by tauto) rfl rfl⟩

/-- SEND completes, and leaves its frame in `TXF` or nothing, whatever the transport answers. -/
theorem exec_send_buffers (a : BitVec 16) (low : BitVec 8) (data : Bytes) (s : State) :
    ∃ t, exec (.send a low data) s = .next t ∧ s.BuffersAfterEncode a data t := by
  by_cases hidle : s.arq = .idle
  case neg => exact ⟨s, exec_of_not_idle rfl hidle, State.buffersAfterEncode_of_kept (by tauto) rfl rfl⟩
  by_cases hlen : data.length ≤ 255
  · obtain ⟨u, hu, -, -, -, hframe, -⟩ := State.encode_spec { s with cancelled := false } a hlen
    have hsent := arqSending_of_frame (s := startAttempt u) hframe
    refine ⟨_, (exec_send_of_some hidle a low hu).trans hsent,
      State.buffersAfterEncode_of_encode hu hidle rfl rfl rfl ?_ ?_⟩ <;> split <;> rfl
  · exact ⟨_, exec_send_of_long hidle a low (by omega), State.buffersAfterEncode_of_kept (by tauto) rfl rfl⟩

/-- DECODE completes, and leaves the payload of a frame in `RXP` or nothing. -/
theorem exec_decode_buffers (a : BitVec 16) (low : BitVec 8) (data : Bytes) (s : State) :
    ∃ t, exec (.decode a low data) s = .next t ∧ t.txf = s.txf ∧
      (∀ fr, s.arq = .idle → decodeFrame data = .ok fr → ∀ k, Memory.read t.rxp k = fr.payload[k]?) ∧
      (∀ e, decodeFrame data = .error e → t.rxp = s.rxp) ∧ (s.arq ≠ .idle → t.rxp = s.rxp) := by
  by_cases hidle : s.arq = .idle
  case neg =>
    exact ⟨s, exec_of_not_idle rfl hidle, rfl, fun _ h => absurd h hidle, fun _ _ => rfl, fun _ => rfl⟩
  cases hd : decodeFrame data with
  | ok fr =>
    refine ⟨_, exec_decode_of_frame hidle a low hd, rfl, fun g _ hg k => ?_, nofun, fun h => absurd hidle h⟩
    cases hg
    exact Memory.read_live fr.payload k
  | error e => exact ⟨_, exec_decode_of_no_frame hidle a low hd, rfl, nofun, fun _ _ => rfl, fun _ => rfl⟩

/-- RDREG completes, and leaves both buffers. -/
theorem exec_rdreg_buffers (r : BitVec 8) (v : Value) (s : State) :
    ∃ t, exec (.rdreg r v) s = .next t ∧ t.txf = s.txf ∧ t.rxp = s.rxp := by
  by_cases hidle : s.arq = .idle
  case neg => exact ⟨s, exec_of_not_idle rfl hidle, rfl, rfl⟩
  cases hr : Reg.ofNumber r with
  | none => exact ⟨_, exec_rdreg_of_reserved hidle hr v, rfl, rfl⟩
  | some x =>
    obtain rfl := Reg.number_of_ofNumber hr
    exact ⟨_, exec_rdreg_of_register hidle x v, rfl, rfl⟩

/-- WRREG completes, and leaves both buffers, whether it writes or refuses. -/
theorem exec_wrreg_buffers (r : BitVec 8) (v : Value) (s : State) :
    ∃ t, exec (.wrreg r v) s = .next t ∧ t.txf = s.txf ∧ t.rxp = s.rxp := by
  by_cases hidle : s.arq = .idle
  case neg => exact ⟨s, exec_of_not_idle rfl hidle, rfl, rfl⟩
  cases hr : Reg.ofNumber r with
  | none => exact ⟨_, exec_wrreg_of_reserved hidle hr v, rfl, rfl⟩
  | some x =>
    obtain rfl := Reg.number_of_ofNumber hr
    refine ⟨_, exec_wrreg_of_register hidle x v, ?_⟩
    cases hw : s.writeReg x v with
    | none => exact ⟨rfl, rfl⟩
    | some u =>
      rw [State.writeReg_eq hw]
      exact ⟨rfl, rfl⟩

/-- A frame received in a transient state has no effect (log entry 7). -/
theorem onFrame_of_not_atRest {s : State} (h : ¬ (s.arq = .idle ∨ s.arq = .awaitingAck)) (fr : Frame) :
    onFrame fr s = .next s := by
  rw [onFrame]
  cases ha : s.arq <;> simp_all

/-- An acknowledgment leaves its ACK frame in `TXF` alone (R152). -/
theorem read_sendAck_txf (fr : Frame) (s : State) (k : Nat) : Memory.read (sendAck fr s).txf k =
    (buildFrame ⟨s.devid, fr.src, s.seq + 1, [Config.ackMark, fr.seq]⟩)[k]? := by
  obtain ⟨u, hu, hsent⟩ := sendAck_spec fr s
  obtain ⟨-, -, -, hlive, -⟩ := State.encode_eq_some hu
  have htxf : (sendAck fr s).txf = u.txf := by rw [hsent]
  rw [htxf, hlive, Memory.read_live]

/-- The receive path does not touch `RXP` after `decode_rec` has written it (R148). -/
@[simp] theorem receiveFrame_rxp (fr : Frame) (s : State) : (receiveFrame fr s).rxp = s.rxp := by
  unfold receiveFrame
  split_ifs <;> simp

/-- The receive path writes `TXF` only to acknowledge. -/
theorem receiveFrame_txf_of_no_ack {fr : Frame} {s : State} (h : ¬ (s.autoAck = true ∧ fr.isAck = false)) :
    (receiveFrame fr s).txf = s.txf := by
  cases hk : fr.isAck with
  | true => rw [receiveFrame_of_isAck hk]
  | false =>
    have hauto : s.autoAck = false := by simpa [hk] using h
    rw [receiveFrame_of_not_autoAck hk hauto, State.emit_txf]

/-- What a received frame leaves in the buffers of `t`. -/
def State.BuffersAfterFrame (s : State) (fr : Frame) (t : State) : Prop :=
  (s.arq = .idle ∧ s.autoAck = true ∧ fr.isAck = false → ∀ k, Memory.read t.txf k =
    (buildFrame ⟨s.devid, fr.src, s.seq + 1, [Config.ackMark, fr.seq]⟩)[k]?) ∧
  (¬ (s.arq = .idle ∧ s.autoAck = true ∧ fr.isAck = false) → t.txf = s.txf) ∧
  (s.arq = .idle ∨ s.arq = .awaitingAck → ∀ k, Memory.read t.rxp k = fr.payload[k]?) ∧
  (¬ (s.arq = .idle ∨ s.arq = .awaitingAck) → t.rxp = s.rxp)

/-- A received frame completes in every state: recorded in `RXP` where LLC rests, and acknowledged in `Idle` if it is a
data frame and `AUTOACK` says so. -/
theorem onFrame_buffers (fr : Frame) (s : State) : ∃ t, onFrame fr s = .next t ∧ s.BuffersAfterFrame fr t := by
  have hread := Memory.read_live fr.payload
  by_cases hrest : s.arq = .idle ∨ s.arq = .awaitingAck
  case neg => exact ⟨s, onFrame_of_not_atRest hrest fr, by tauto, fun _ => rfl, by tauto, fun _ => rfl⟩
  obtain hidle | hwait := hrest
  · refine ⟨_, onFrame_of_idle hidle fr, ?_, fun h => ?_, fun _ => ?_, by tauto⟩
    · rintro ⟨-, hauto, hdata⟩
      rw [receiveFrame_of_autoAck hdata (s := s.recordFrame fr) hauto]
      exact read_sendAck_txf fr ((s.recordFrame fr).emit (.deliver fr.src fr.dst fr.seq fr.payload))
    · exact receiveFrame_txf_of_no_ack (s := s.recordFrame fr) fun hc => h ⟨hidle, hc⟩
    · rwa [receiveFrame_rxp]
  · have hnot : s.arq ≠ .idle := by simp [hwait]
    cases hm : ackMatches fr s with
    | true => exact ⟨_, onFrame_of_match hwait hm, by tauto, fun _ => rfl, fun _ => hread, by tauto⟩
    | false => exact ⟨_, onFrame_of_no_match hwait hm, by tauto, fun _ => rfl, fun _ => hread, by tauto⟩

/-- Settles O50, by the rows of the opcode table. -/
theorem buffersHoldExactlyTheLastWrite : Obligations.BuffersHoldExactlyTheLastWrite := by
  intro i s hwf
  cases i with
  | crc16 a low data =>
    by_cases hidle : s.arq = .idle
    · exact ⟨_, exec_crc16_of_idle hidle a low data, rfl, rfl⟩
    · exact ⟨s, exec_of_not_idle rfl hidle, rfl, rfl⟩
  | encode a low data => exact exec_encode_buffers a low data s
  | decode a low data => exact exec_decode_buffers a low data s
  | send a low data => exact exec_send_buffers a low data s
  | rdreg r v => exact exec_rdreg_buffers r v s
  | wrreg r v => exact exec_wrreg_buffers r v s
  | frame src dst q p =>
    obtain ⟨t, ht, hack, hkept, hrx, hrxKept⟩ := onFrame_buffers ⟨src, dst, q, p⟩ s
    have hdata := Frame.isAck_of_wf hwf
    simp only [hdata, and_true] at hack hkept
    exact ⟨t, ht, hack, hkept, hrx, hrxKept⟩
  | frameAck src dst q acked =>
    obtain ⟨t, ht, -, hkept, hrx, hrxKept⟩ := onFrame_buffers ⟨src, dst, q, [Config.ackMark, acked]⟩ s
    have hack := Frame.isAck_ack src dst q acked
    exact ⟨t, ht, hkept (by simp [hack]), hrx, hrxKept⟩

/-! ## Every step completes (R7, R177) -/

/-- Every well-formed instruction completes. -/
theorem exec_completes {i : Instr} (h : i.wf = true) (s : State) : ∃ t, exec i s = .next t := by
  obtain ⟨t, ht, -⟩ := buffersHoldExactlyTheLastWrite i s h
  exact ⟨t, ht⟩

/-- A command that a port can carry is an instruction or has a reserved opcode. -/
theorem decode_of_presentable {w : CommandWord} {d : Bytes} (h : Event.Presentable (.cmd w d)) :
    (∃ i, decode (.command w d) = .ok i) ∨ ∃ op, decode (.command w d) = .error (.reservedOpcode op) := by
  have hn : CommandWord.op w ∈ [(0x01 : BitVec 8), 0x02, 0x03, 0x04] → d.length = (CommandWord.n w).toNat := h
  simp only [decode, decodeCommand, decodeFormatB]
  split_ifs <;> simp_all

/-- A command that a port can carry completes. -/
theorem onWire_command_completes {w : CommandWord} {d : Bytes} (h : Event.Presentable (.cmd w d)) (s : State) :
    ∃ t, onWire (.command w d) s = .next t := by
  obtain ⟨i, hd⟩ | ⟨op, hd⟩ := decode_of_presentable h
  · rw [onWire_of_decode hd]
    exact exec_completes (encodeOfDecodeIsThePresentation _ _ hd).1 s
  · by_cases hidle : s.arq = .idle
    · exact ⟨s.refuseCommand, by simp only [onWire, hd, onUndecoded, State.whenIdle_of_idle hidle]⟩
    · exact ⟨s, onWire_command_busy hidle w d⟩

/-- A received buffer completes. -/
theorem onWire_buffer_completes (b : Bytes) (s : State) : ∃ t, onWire (.buffer b) s = .next t := by
  cases hd : decodeFrame b with
  | ok fr =>
    obtain ⟨t, ht, -⟩ := onFrame_buffers fr s
    exact ⟨t, (onWire_of_frame hd s).trans ht⟩
  | error e =>
    rw [onWire_of_no_frame hd, onRejected]
    split <;> exact ⟨_, rfl⟩

/-- A tick completes, if the frame of a wait can be read. -/
theorem onTick_completes {s : State} (h : s.arq = .awaitingAck → ∃ f, s.txFrame = .ok f) : ∃ t, onTick s = .next t := by
  by_cases hwait : s.arq = .awaitingAck
  case neg => exact ⟨s, onTick_of_not_awaitingAck hwait⟩
  rw [onTick, if_pos hwait]
  split
  · exact runToRest_completes fun _ => h hwait
  · exact ⟨_, rfl⟩

/-- A cancel completes. -/
theorem onCancel_completes (s : State) : ∃ t, onCancel s = .next t := by
  by_cases hwait : s.arq = .awaitingAck
  · exact ⟨_, onCancel_of_awaitingAck hwait⟩
  · exact ⟨s, onCancel_of_not_awaitingAck hwait⟩

/-- Settles O43: of the invariant, only that the outstanding frame can be read is needed, for the tick that retries. -/
theorem stepCompletesUnderTheInvariant : Obligations.StepCompletesUnderTheInvariant := by
  intro s hs hpresentable
  cases hin : s.inbox with
  | nil => exact ⟨s.rest, by rw [step, hin]⟩
  | cons i rest =>
    obtain ⟨e, ok⟩ := i
    have he : Event.Presentable e := hpresentable ⟨e, ok⟩ (by simp [hin])
    rw [step_of_inbox hin]
    cases e with
    | cmd w d => exact onWire_command_completes he _
    | rxBytes b => exact onWire_buffer_completes b _
    | tick =>
      refine onTick_completes fun hwait => ?_
      obtain ⟨⟨-, -, f, -, hf, -⟩, -⟩ := hs.outstanding hwait
      exact ⟨f, hf⟩
    | cancel => exact onCancel_completes _
    | reset => exact ⟨_, rfl⟩

/-! ## Who transmits (R145) and who answers (R50, R56, R192) -/

/-- A data frame is the presentation of a well-formed FRAME. -/
theorem event_of_dataFrame {b : Bytes} {fr : Frame} (h : decodeFrame b = .ok fr) (hk : fr.isAck = false) :
    Instr.wf (.frame fr.src fr.dst fr.seq fr.payload) = true ∧
      Event.rxBytes b = Wire.event (encode (.frame fr.src fr.dst fr.seq fr.payload)) := by
  rw [← Frame.toInstr_of_not_isAck hk, Frame.encode_toInstr, ← buildFrame_of_decodeFrame h]
  exact ⟨Frame.wf_toInstr (decodeFrame_payload_length h), rfl⟩

/-- What makes LLC transmit (R145): a SEND that starts, a data frame that is acknowledged, or a retry. -/
def State.MayTransmit (s : State) (e : Event) : Prop :=
  (s.arq = .idle ∧ ∃ a low data, data.length ≤ 255 ∧ e = Wire.event (Sys2Proof.encode (.send a low data))) ∨
  (s.arq = .idle ∧ s.autoAck = true ∧
    ∃ src dst q p, Instr.wf (.frame src dst q p) = true ∧
      e = Wire.event (Sys2Proof.encode (.frame src dst q p))) ∨
  (s.arq = .awaitingAck ∧ e = .tick ∧ s.waitRem = 1 ∧ s.attempts.toNat < s.maxRetry.toNat)

/-- An event handled with no output so far transmits only if it is one of the three. -/
theorem Transition.mayTransmit {e : Event} {s t : State} (h : Transition e s t) (ho : s.out = []) {b : Bytes}
    (hb : .transmit b ∈ t.out) : s.MayTransmit e := by
  cases h with
  | sendOk a low d f s u hidle hu _ =>
    obtain ⟨hlen, -⟩ := State.encode_eq_some hu
    exact .inl ⟨hidle, a, low, d, hlen, rfl⟩
  | sendFail a low d f s u hidle hu _ =>
    obtain ⟨hlen, -⟩ := State.encode_eq_some hu
    exact .inl ⟨hidle, a, low, d, hlen, rfl⟩
  | deliverAck b fr s u f hidle hd hk hauto _ =>
    obtain ⟨hwf, he⟩ := event_of_dataFrame hd hk
    exact .inr (.inl ⟨hidle, hauto, _, _, _, _, hwf, he⟩)
  | retry s f hwait hrem hlt _ => exact .inr (.inr ⟨hwait, rfl, hrem, hlt⟩)
  | encode a low d f s u _ hu => simp [State.encode_out hu, ho] at hb
  | wrreg w d r v s u _ _ hu => simp [State.writeReg_out hu, ho] at hb
  | reset | still | answer | decodeFrame | decodeReject | sendLong | reject | drop | deliver | acked | tickDown
  | exhausted | cancelled => simp [ho] at hb

/-- Settles O45, by the transitions of a step. -/
theorem transmitOnlyForSendRetryOrAck : Obligations.TransmitOnlyForSendRetryOrAck :=
  fun _ _ _ _ _ _ hin h hb => (step_transition_of_inbox hin h).mayTransmit rfl hb

/-- The number of responses among the outputs. -/
def State.responses (s : State) : Nat := (s.out.filter Output.isRsp).length

@[simp] theorem Output.isRsp_rsp (err : ErrCode) (val : Value) (data : Bytes) :
    (Output.rsp err val data).isRsp = true := rfl
@[simp] theorem Output.isRsp_transmit (b : Bytes) : (Output.transmit b).isRsp = false := rfl
@[simp] theorem Output.isRsp_deliver (src dst : DeviceId) (seq : Byte) (payload : Bytes) :
    (Output.deliver src dst seq payload).isRsp = false := rfl
@[simp] theorem Output.isRsp_ackTxFail : Output.ackTxFail.isRsp = false := rfl

/-- How an event bears on the responses, from `s` to `t`: it answers a command or the SEND of a wait and leaves LLC in
`Idle`; it starts the wait of a SEND; or it is no command taken, and neither answers nor moves LLC. -/
def State.Answers (s : State) (e : Event) (t : State) : Prop :=
  (t.responses = 1 ∧ t.arq = .idle ∧ (s.arq = .awaitingAck ∨ ∃ w d, e = .cmd w d)) ∨
  (t.responses = 0 ∧ t.arq = .awaitingAck ∧ s.arq = .idle ∧ ∃ w d, e = .cmd w d ∧ CommandWord.op w = 0x04) ∨
  (t.responses = 0 ∧ t.arq = s.arq ∧ (s.arq = .idle → ∀ w d, e ≠ .cmd w d))

/-- Every event but `Reset`, handled with no output so far, bears on the responses in one of the three ways. -/
theorem Transition.answers {e : Event} {s t : State} (h : Transition e s t) (he : e ≠ .reset) (ho : s.out = []) :
    s.Answers e t := by
  have hnone : s.responses = 0 := by simp [State.responses, ho]
  cases h with
  | reset => exact absurd rfl he
  | answer _ _ _ _ _ hidle | decodeFrame _ _ _ _ _ hidle | decodeReject _ _ _ _ hidle | sendLong _ _ _ hidle =>
    exact .inl ⟨by simp [State.responses, ho, List.filter_cons], hidle, .inr ⟨_, _, rfl⟩⟩
  | encode a low d f s u hidle hu =>
    exact .inl ⟨by simp [State.responses, State.encode_out hu, ho, List.filter_cons],
      (State.encode_arq hu).trans hidle, .inr ⟨_, _, rfl⟩⟩
  | wrreg w d r v s u hidle _ hu =>
    have harq : u.arq = .idle := by rw [State.writeReg_eq hu]; exact hidle
    exact .inl ⟨by simp [State.responses, State.writeReg_out hu, ho, List.filter_cons], harq, .inr ⟨_, _, rfl⟩⟩
  | sendFail a low d f s u _ hu _ =>
    exact .inl ⟨by simp [State.responses, State.encode_out hu, ho, List.filter_cons], rfl, .inr ⟨_, _, rfl⟩⟩
  | sendOk a low d f s u hidle hu _ =>
    exact .inr (.inl ⟨by simp [State.responses, State.encode_out hu, ho], rfl, hidle, _, _, rfl,
      op_formatB ..⟩)
  | acked _ _ _ hwait | exhausted _ hwait | cancelled _ hwait =>
    exact .inl ⟨by simp [State.responses, ho, List.filter_cons], rfl, .inl hwait⟩
  | retry s f hwait _ _ _ =>
    cases hok : s.txOk
    · exact .inl ⟨by simp [State.responses, ho, List.filter_cons], rfl, .inl hwait⟩
    · refine .inr (.inr ⟨by simp [State.responses, ho], rfl, fun hidle => ?_⟩)
      cases hwait.symm.trans hidle
  | still e s _ hw =>
    refine .inr (.inr ⟨hnone, rfl, fun hidle w d => ?_⟩)
    rintro rfl
    simp [hidle] at hw
  | deliverAck b fr s u f _ _ _ _ hu =>
    refine .inr (.inr ⟨?_, (State.encode_arq hu :), nofun⟩)
    cases hok : s.txOk <;> simp [State.responses, State.encode_out hu, ho]
  | deliver => exact .inr (.inr ⟨by simp [State.responses, ho], rfl, nofun⟩)
  | reject | drop | tickDown => exact .inr (.inr ⟨hnone, rfl, nofun⟩)

/-- A `Reset` answers nothing and leaves LLC in `Idle` (R192). -/
theorem Transition.answers_of_reset {s t : State} (h : Transition .reset s t) (ho : s.out = []) :
    t.responses = 0 ∧ t.arq = .idle := by
  cases h with
  | reset => exact ⟨by simp [State.responses, ho], rfl⟩
  | still _ _ hne => exact absurd rfl hne

/-- Settles O51: the three ways an event bears on the responses, for each of the four questions. -/
theorem eachCommandIsAnsweredOnce : Obligations.EachCommandIsAnsweredOnce := by
  intro s t e ok rest hin h
  have htr := step_transition_of_inbox hin h
  have hans (he : e ≠ .reset) : State.Answers _ e t := htr.answers he rfl
  refine ⟨?_, fun he hwait => ?_, ?_, fun hidle hcmd => ?_⟩
  · rintro rfl
    exact (htr.answers_of_reset rfl).1
  · obtain ⟨hn, ht, -⟩ | ⟨-, -, hidle, -⟩ | ⟨hn, ht, -⟩ := hans he
    · exact .inl ⟨hn, ht⟩
    · cases hwait.symm.trans hidle
    · exact .inr ⟨hn, ht.trans hwait⟩
  · rintro hidle w d rfl
    obtain ⟨hn, ht, -⟩ | ⟨hn, ht, -, w', d', he, hop⟩ | ⟨-, -, hno⟩ := hans nofun
    · exact .inl ⟨hn, ht⟩
    · cases he
      exact .inr ⟨hn, ht, op_eq_iff.mp hop⟩
    · exact absurd rfl (hno hidle w d)
  · by_cases he : e = .reset
    · subst he
      exact htr.answers_of_reset rfl
    obtain ⟨-, -, hwait | ⟨w, d, he⟩⟩ | ⟨-, -, -, w, d, he, -⟩ | ⟨hn, ht, -⟩ := hans he
    · cases hidle.symm.trans hwait
    · exact absurd he (hcmd w d)
    · exact absurd he (hcmd w d)
    · exact ⟨hn, ht.trans hidle⟩

end Sys2Proof.Machine
end

section
/-! PROOF of the timed part of 43_arq.md: what a tick does during the wait (R131, R133, R126), the number of ticks a wait
can last (R141), and the two ways a SEND goes that is followed by quiet inputs (R140, R142). A run over quiet inputs is an
induction on them, with the state of the wait as a function of the ticks so far: `c` ticks leave `c / TIMEOUT` retries made
and `TIMEOUT - c % TIMEOUT` ticks to the deadline. -/

namespace Sys2Proof.Machine

/-! ## A tick of the wait (R131, R133) -/

section tick
variable {s : State} (h : s.arq = .awaitingAck)
include h

/-- Before the deadline the count goes down. -/
theorem onTick_of_ne_one (hw : s.waitRem ≠ 1) : onTick s = .next { s with waitRem := s.waitRem - 1 } := by
  have hleft : ¬ s.waitRem - 1 = 0 := by bv_omega
  rw [onTick, if_pos h, if_neg hleft]

/-- At the deadline LLC enters `Retrying`, with `RESULT` saying so (R126). -/
theorem onTick_of_eq_one (hw : s.waitRem = 1) :
    onTick s = runToRest { s with waitRem := 0, resultErr := .ackTimeout, arq := .retrying } := by
  rw [onTick, if_pos h, hw]
  rfl

/-- At the deadline with retries left the frame is sent once more. -/
theorem onTick_of_retry (hw : s.waitRem = 1) (hlt : s.attempts.toNat < s.maxRetry.toNat) :
    onTick s = arqSending
      { s with waitRem := 0, resultErr := .ackTimeout, attempts := s.attempts + 1, arq := .sending } :=
  (onTick_of_eq_one h hw).trans (runToRest_of_retrying_lt rfl (BitVec.lt_def.mpr hlt))

/-- A retransmission that succeeds starts a full wait (R124). -/
theorem onTick_of_retry_txOk {f : Bytes} (hw : s.waitRem = 1) (hlt : s.attempts.toNat < s.maxRetry.toNat)
    (hf : s.txFrame = .ok f) (hok : s.txOk = true) :
    onTick s = .next
      { s with
        waitRem := s.timeout, resultErr := .ackTimeout, attempts := s.attempts + 1, arq := .awaitingAck
        out := s.out ++ [.transmit f] } :=
  (onTick_of_retry h hw hlt).trans (arqSending_of_txOk (by exact hf) (by exact hok))

/-- A retransmission that fails resolves the SEND, with the number of retries made (R125). -/
theorem onTick_of_retry_txFail {f : Bytes} (hw : s.waitRem = 1) (hlt : s.attempts.toNat < s.maxRetry.toNat)
    (hf : s.txFrame = .ok f) (hok : s.txOk = false) :
    onTick s = .next
      { s with
        waitRem := 0, resultErr := .transportFailure, attempts := s.attempts + 1, arq := .idle
        out := s.out ++
          [.transmit f, .rsp .transportFailure (BitVec.ofNat 32 (s.attempts.toNat + 1)) []] } := by
  have hbound := s.maxRetry.isLt
  have hatt : (s.attempts + 1).toNat = s.attempts.toNat + 1 := by bv_omega
  rw [← hatt]
  exact (onTick_of_retry h hw hlt).trans (arqSending_of_txFail (by exact hf) (by exact hok))

/-- At the deadline with no retry left the attempt is exhausted. -/
theorem onTick_of_exhausted (hw : s.waitRem = 1) (hge : ¬ s.attempts.toNat < s.maxRetry.toNat) :
    onTick s = .next ({ s with waitRem := 0 }.resolve .retriesExhausted) :=
  (onTick_of_eq_one h hw).trans (runToRest_of_retrying_ge rfl fun hlt => hge (BitVec.lt_def.mp hlt))

end tick

/-- Settles O23: the count, the retransmission with either answer of the transport, and the exhaustion. -/
theorem tickDuringTheWait : Obligations.TickDuringTheWait := by
  intro s ok rest f hwait hin hpos hf
  have hwait' : (s.takeInput ⟨.tick, ok⟩ rest).arq = .awaitingAck := hwait
  rw [step_of_inbox hin, onEvent]
  split_ifs with hw hlt hok
  · exact onTick_of_ne_one hwait' hw
  · rw [onTick_of_retry_txOk hwait' (not_not.mp hw) hlt hf hok]
    simp [State.takeInput, hwait]
  · exact onTick_of_retry_txFail hwait' (not_not.mp hw) hlt hf (by simpa using hok)
  · rw [onTick_of_exhausted hwait' (not_not.mp hw) hlt, State.resolve_eq]
    rfl

/-! ## The ticks a wait can last (R141) -/

/-- A retransmission uses up the tick that makes it: one retry less, and a full timeout again. -/
theorem ticksLeft_retry {m a d : Nat} (h : a < m) : (m - (a + 1)) * d + d + 1 = (m - a) * d + 1 := by
  obtain ⟨k, rfl⟩ : ∃ k, m = a + 1 + k := ⟨m - (a + 1), by omega⟩
  rw [show a + 1 + k - (a + 1) = k by omega, show a + 1 + k - a = k + 1 by omega, Nat.succ_mul]

/-- Every event but `Reset` ends the wait or uses up one tick if it is a tick and none if it is not. -/
theorem Transition.ticksLeft {e : Event} {s t : State} (h : Transition e s t) (he : e ≠ .reset)
    (hwait : s.arq = .awaitingAck) (hpos : 1 ≤ s.waitRem.toNat) :
    t.arq = .idle ∨ (t.arq = .awaitingAck ∧ t.ticksLeft + (if e = .tick then 1 else 0) = s.ticksLeft) := by
  have busy {P : Prop} (hidle : s.arq = .idle) : P := nomatch hwait.symm.trans hidle
  cases h with
  | reset => exact absurd rfl he
  | still e s _ hw =>
    have hnotick : e ≠ .tick := by rintro rfl; simp [hwait] at hw
    exact .inr ⟨hwait, by rw [if_neg hnotick, Nat.add_zero]⟩
  | reject | drop => exact .inr ⟨hwait, rfl⟩
  | acked | exhausted | cancelled => exact .inl rfl
  | tickDown s _ _ =>
    refine .inr ⟨hwait, ?_⟩
    have hdown : (s.waitRem - 1).toNat + 1 = s.waitRem.toNat := by bv_omega
    rw [if_pos rfl, State.ticksLeft, State.ticksLeft, Nat.add_assoc]
    exact congrArg _ hdown
  | retry s f _ hw hlt _ =>
    split
    · refine .inr ⟨hwait, ?_⟩
      have hatt : (s.attempts + 1).toNat = s.attempts.toNat + 1 := by bv_omega
      simp only [State.ticksLeft, hatt, hw, reduceIte]
      exact ticksLeft_retry hlt
    · exact .inl rfl
  | answer _ _ _ _ _ hidle | encode _ _ _ _ _ _ hidle | decodeFrame _ _ _ _ _ hidle | decodeReject _ _ _ _ hidle
  | wrreg _ _ _ _ _ _ hidle | sendLong _ _ _ hidle | sendOk _ _ _ _ _ _ hidle | sendFail _ _ _ _ _ _ hidle
  | deliver _ _ _ hidle | deliverAck _ _ _ _ _ hidle => exact busy hidle

/-- Settles O30: of the invariant, only that the wait has a tick left is needed. -/
theorem everyTickOfTheWaitCounts : Obligations.EveryTickOfTheWaitCounts :=
  fun _ _ _ _ _ hs hwait hin h he => (step_transition_of_inbox hin h).ticksLeft he hwait (hs.wait_bounds hwait).1

/-! ## Runs -/

/-- A run of one step. -/
theorem runOutputs_one {s t : State} (h : step s = .next t) : runOutputs 1 s = some (t, t.out) := by
  simp [runOutputs, h]

/-- A run and one that goes on from where it ends. -/
theorem runOutputs_add {m n : Nat} {s u t : State} {os ps : List Output} (h : runOutputs m s = some (u, os))
    (hn : runOutputs n u = some (t, ps)) : runOutputs (m + n) s = some (t, os ++ ps) := by
  induction m generalizing s os with
  | zero =>
    cases h
    rw [Nat.zero_add, hn, List.nil_append]
  | succ m ih =>
    rw [Nat.succ_add]
    rw [runOutputs] at h ⊢
    split at h
    · rename_i v hv
      obtain ⟨⟨w, qs⟩, hrun, heq⟩ := Option.map_eq_some_iff.mp h
      cases heq
      simp only [ih hrun, Option.map_some, List.append_assoc]
    · cases h
    · cases h

/-! ## The wait after `c` ticks (R140, R141) -/

/-- `t` waits for the ACK of the frame `f` that a SEND in `s` has sent, and `c` ticks have gone by: there have been
`c / TIMEOUT` retries, and the rest of the ticks count against the present deadline. -/
structure State.WaitsAfter (s : State) (f : Bytes) (c : Nat) (t : State) : Prop where
  arq : t.arq = .awaitingAck
  maxRetry : t.maxRetry = s.maxRetry
  timeout : t.timeout = s.timeout
  seq : t.seq = s.seq + 1
  outSeq : t.outSeq = s.seq + 1
  frame : t.txFrame = .ok f
  attempts : t.attempts.toNat = c / s.timeout.toNat
  waitRem : t.waitRem.toNat = s.timeout.toNat - c % s.timeout.toNat

/-- One more tick within a timeout. -/
theorem succ_mod_of_not_dvd {c d : Nat} (hd : 1 ≤ d) (h : ¬ d ∣ c + 1) :
    (c + 1) / d = c / d ∧ (c + 1) % d = c % d + 1 ∧ c % d + 1 < d := by
  have hdiv : (c + 1) / d = c / d := by rw [Nat.succ_div, if_neg h, Nat.add_zero]
  have hc := Nat.div_add_mod c d
  have hc' := Nat.div_add_mod (c + 1) d
  have hlt := Nat.mod_lt (c + 1) hd
  rw [hdiv] at hc'
  omega

/-- The tick that completes a timeout. -/
theorem succ_mod_of_dvd {c d : Nat} (h : d ∣ c + 1) : (c + 1) / d = c / d + 1 ∧ (c + 1) % d = 0 ∧ c % d + 1 = d := by
  have hdiv : (c + 1) / d = c / d + 1 := by rw [Nat.succ_div, if_pos h]
  have hmod : (c + 1) % d = 0 := Nat.mod_eq_zero_of_dvd h
  have hc := Nat.div_add_mod c d
  have hc' := Nat.div_add_mod (c + 1) d
  rw [hdiv, hmod, Nat.mul_succ] at hc'
  omega

/-- The next tick of the wait reaches the deadline exactly when it completes a timeout. -/
theorem State.WaitsAfter.waitRem_eq_one_iff {s t : State} {f : Bytes} {c : Nat} (h : s.WaitsAfter f c t)
    (hd : 1 ≤ s.timeout.toNat) : t.waitRem = 1 ↔ s.timeout.toNat ∣ c + 1 := by
  have hrem := h.waitRem
  rw [← BitVec.toNat_inj, hrem]
  show s.timeout.toNat - c % s.timeout.toNat = 1 ↔ _
  constructor
  · intro hone
    by_contra hn
    have := succ_mod_of_not_dvd hd hn
    omega
  · intro hdvd
    have := succ_mod_of_dvd hdvd
    omega

/-- The wait has a tick left. -/
theorem State.WaitsAfter.waitRem_pos {s t : State} {f : Bytes} {c : Nat} (h : s.WaitsAfter f c t)
    (hd : 1 ≤ s.timeout.toNat) : 1 ≤ t.waitRem.toNat := by
  have hlt := Nat.mod_lt c hd
  rw [h.waitRem]
  omega

/-- One tick, short of the last deadline and with a transport that takes a retransmission: the wait goes on, one tick
later, and the frame is transmitted if the tick completes a timeout. -/
theorem State.WaitsAfter.step_tick {s t : State} {f : Bytes} {c : Nat} (h : s.WaitsAfter f c t)
    (hd : 1 ≤ s.timeout.toNat) {ok : Bool} {rest : List Input} (hin : t.inbox = ⟨.tick, ok⟩ :: rest)
    (hc : c + 1 < (s.maxRetry.toNat + 1) * s.timeout.toNat) (hok : s.timeout.toNat ∣ c + 1 → ok = true) :
    ∃ u, step t = .next u ∧ s.WaitsAfter f (c + 1) u ∧ u.inbox = rest ∧
      List.replicate (c / s.timeout.toNat) (.transmit f) ++ u.out =
        List.replicate ((c + 1) / s.timeout.toNat) (.transmit f) := by
  have hstep := tickDuringTheWait t ok rest f h.arq hin (h.waitRem_pos hd) h.frame
  have hone := h.waitRem_eq_one_iff hd
  by_cases hdvd : s.timeout.toNat ∣ c + 1
  · obtain ⟨hdiv, hmod, -⟩ := succ_mod_of_dvd hdvd
    have hlt : t.attempts.toNat < t.maxRetry.toNat := by
      have := Nat.div_lt_of_lt_mul (Nat.mul_comm _ _ ▸ hc)
      rw [h.attempts, h.maxRetry]
      omega
    have hatt : (t.attempts + 1).toNat = t.attempts.toNat + 1 := by bv_omega
    rw [if_neg (not_not.mpr (hone.mpr hdvd)), if_pos hlt, if_pos (hok hdvd)] at hstep
    exact ⟨_, hstep,
      { h with
        attempts := by rw [hatt, h.attempts, hdiv]
        waitRem := by show t.timeout.toNat = _; rw [h.timeout, hmod, Nat.sub_zero] },
      rfl, by rw [hdiv, List.replicate_succ']⟩
  · obtain ⟨hdiv, hmod, hlt⟩ := succ_mod_of_not_dvd hd hdvd
    have hdown : (t.waitRem - 1).toNat = t.waitRem.toNat - 1 := by have := h.waitRem_pos hd; bv_omega
    rw [if_pos (mt hone.mp hdvd)] at hstep
    exact ⟨_, hstep,
      { h with
        attempts := by rw [hdiv]; exact h.attempts
        waitRem := by rw [hdown, h.waitRem, hmod]; omega },
      rfl, by rw [hdiv, List.append_nil]⟩

/-- A quiet input that is no tick changes nothing of the wait and emits nothing. -/
theorem State.WaitsAfter.step_quiet {s t : State} {f : Bytes} {c : Nat} (h : s.WaitsAfter f c t) {i : Input}
    {rest : List Input} (hin : t.inbox = i :: rest) (hquiet : i.Quiet (s.seq + 1)) (hi : i.event ≠ .tick) :
    ∃ u, step t = .next u ∧ s.WaitsAfter f c u ∧ u.inbox = rest ∧ u.out = [] := by
  obtain ⟨e, ok⟩ := i
  cases e with
  | tick => exact absurd rfl hi
  | cancel | reset => exact hquiet.elim
  | cmd w d => exact ⟨_, commandsDuringTheWaitDoNothing t w d ok rest h.arq hin, { h with }, rfl, rfl⟩
  | rxBytes b =>
    cases hd : decodeFrame b with
    | error e => exact ⟨_, step_of_no_frame (State.atRest_of_awaitingAck h.arq) hin hd, { h with }, rfl, rfl⟩
    | ok fr =>
      have hother : ackMatches fr t = false := by
        have hne := hquiet fr hd
        simp only [ackMatches, h.outSeq, Bool.and_eq_false_iff, decide_eq_false_iff_not]
        cases hk : fr.isAck <;> simp_all
      refine ⟨(t.takeInput ⟨.rxBytes b, ok⟩ rest).recordFrame fr, ?_, { h with }, rfl, rfl⟩
      rw [step_of_inbox hin, onEvent, onWire_of_frame hd]
      exact onFrame_of_no_match (s := t.takeInput ⟨.rxBytes b, ok⟩ rest) h.arq hother

/-- The ticks of a run and one more input. -/
theorem ticksOf_concat (is : List Input) (i : Input) :
    ticksOf (is ++ [i]) = ticksOf is + if i.event = .tick then 1 else 0 := by
  simp [ticksOf, List.countP_append, List.countP_cons]

/-- The draws of a run without its last input. -/
theorem TransmitsSucceed.of_concat {d : Nat} {is : List Input} {i : Input} (h : TransmitsSucceed d (is ++ [i])) :
    TransmitsSucceed d is ∧ (i.event = .tick → d ∣ ticksOf is + 1 → i.txOk = true) :=
  ⟨fun before j after heq => h before j (after ++ [i]) (by simp [heq]), h is i [] rfl⟩

/-- A run over quiet inputs, short of the last deadline: the wait goes on, and the frame has been transmitted once for
every timeout that the ticks have completed. -/
theorem State.WaitsAfter.run {s u : State} {f : Bytes} (h : s.WaitsAfter f 0 u) (hd : 1 ≤ s.timeout.toNat)
    {quiet rest : List Input} (hin : u.inbox = quiet ++ rest) (hquiet : ∀ i ∈ quiet, i.Quiet (s.seq + 1))
    (hok : TransmitsSucceed s.timeout.toNat quiet)
    (hc : ticksOf quiet < (s.maxRetry.toNat + 1) * s.timeout.toNat) :
    ∃ t, runOutputs quiet.length u = some (t, List.replicate (ticksOf quiet / s.timeout.toNat) (.transmit f)) ∧
      s.WaitsAfter f (ticksOf quiet) t ∧ t.inbox = rest := by
  induction quiet using List.reverseRecOn generalizing rest with
  | nil => exact ⟨u, by simp [runOutputs, ticksOf], h, hin⟩
  | append_singleton is i ih =>
    obtain ⟨hinit, hlast⟩ := hok.of_concat
    have hcount := ticksOf_concat is i
    obtain ⟨v, hrun, hwait, hrest⟩ := ih (rest := i :: rest) (by simpa using hin)
      (fun j hj => hquiet j (by simp [hj])) hinit (by omega)
    rw [List.length_append, List.length_singleton, hcount]
    by_cases htick : i.event = .tick
    · rw [if_pos htick] at hcount ⊢
      obtain ⟨e, ok⟩ := i
      obtain rfl : e = .tick := htick
      obtain ⟨t, hstep, hnext, hinbox, hout⟩ := hwait.step_tick hd hrest (by omega) (hlast rfl)
      exact ⟨t, by rw [← hout]; exact runOutputs_add hrun (runOutputs_one hstep), hnext, hinbox⟩
    · rw [if_neg htick, Nat.add_zero]
      obtain ⟨t, hstep, hnext, hinbox, hout⟩ := hwait.step_quiet hrest (hquiet i (by simp)) htick
      refine ⟨t, ?_, hnext, hinbox⟩
      have hone := runOutputs_one hstep
      rw [hout] at hone
      simpa using runOutputs_add hrun hone

/-! ## A SEND and quiet inputs (R140, R142) -/

/-- The presentation of a well-formed instruction is the instruction run. -/
theorem step_of_presented {s : State} {i : Instr} {ok : Bool} {rest : List Input} (hwf : i.wf = true)
    (hin : s.inbox = ⟨Wire.event (encode i), ok⟩ :: rest) :
    step s = exec i { s with inbox := rest, txOk := ok, out := [] } :=
  stepRunsTheDecodedInstruction s _ ok rest i hin (decodeOfEncodeIsTheInstruction i hwf)

/-- A SEND that the transport takes transmits its frame and waits. -/
theorem step_send {s : State} {a : BitVec 16} {low : BitVec 8} {data : Bytes} {rest : List Input}
    (hidle : s.arq = .idle) (hlen : data.length ≤ 255)
    (hin : s.inbox = ⟨Wire.event (encode (.send a low data)), true⟩ :: rest) :
    ∃ u, step s = .next u ∧ s.WaitsAfter (buildFrame ⟨s.devid, a, s.seq + 1, data⟩) 0 u ∧ u.inbox = rest ∧
      u.out = [.transmit (buildFrame ⟨s.devid, a, s.seq + 1, data⟩)] := by
  have hwf : Instr.wf (.send a low data) = true := decide_eq_true (by show data.length < 2 ^ 16; omega)
  obtain ⟨u, hexec, heq, hframe⟩ :=
    sendStartsTheAttempt a low data { s with inbox := rest, txOk := true, out := [] } hidle hlen
  refine ⟨u, (step_of_presented hwf hin).trans hexec, ?_, by rw [heq], by rw [heq]; rfl⟩
  constructor
  case frame => exact hframe
  case attempts => rw [heq]; simp
  case waitRem => rw [heq]; simp
  all_goals rw [heq]
  all_goals rfl

/-- A SEND and quiet inputs, short of the last deadline. -/
theorem run_send_quiet {s : State} {a : BitVec 16} {low : BitVec 8} {data : Bytes} {quiet rest : List Input}
    (hidle : s.arq = .idle) (hd : 1 ≤ s.timeout.toNat) (hlen : data.length ≤ 255)
    (hquiet : ∀ i ∈ quiet, i.Quiet (s.seq + 1)) (hok : TransmitsSucceed s.timeout.toNat quiet)
    (hin : s.inbox = ⟨Wire.event (encode (.send a low data)), true⟩ :: (quiet ++ rest))
    (hc : ticksOf quiet < (s.maxRetry.toNat + 1) * s.timeout.toNat) :
    ∃ t, runOutputs (1 + quiet.length) s =
        some (t, List.replicate (ticksOf quiet / s.timeout.toNat + 1)
          (.transmit (buildFrame ⟨s.devid, a, s.seq + 1, data⟩))) ∧
      s.WaitsAfter (buildFrame ⟨s.devid, a, s.seq + 1, data⟩) (ticksOf quiet) t ∧ t.inbox = rest := by
  obtain ⟨u, hstep, hwait, hinbox, hout⟩ := step_send hidle hlen hin
  obtain ⟨t, hrun, hafter, hrest⟩ := hwait.run hd hinbox hquiet hok hc
  have hone := runOutputs_one hstep
  rw [hout] at hone
  exact ⟨t, runOutputs_add hone hrun, hafter, hrest⟩

/-- Settles O31: the run up to a tick before the last deadline, and that tick. -/
theorem sendWithoutAckIsExhausted : Obligations.SendWithoutAckIsExhausted := by
  intro a low data s quiet rest hidle hd hlen hquiet hok hin m d f
  refine ⟨fun hc => ?_, fun hc ok rest' hrest => ?_⟩
  · obtain ⟨t, hrun, hwait, hinbox⟩ := run_send_quiet hidle hd hlen hquiet hok hin hc
    exact ⟨t, hrun, hwait.arq, hwait.seq, hinbox⟩
  · obtain ⟨t, hrun, hwait, hinbox⟩ := run_send_quiet hidle hd hlen hquiet hok hin (Nat.lt_of_succ_le hc.le)
    have hdvd : d ∣ ticksOf quiet + 1 := hc ▸ Dvd.intro_left _ rfl
    have hdiv : ticksOf quiet / d = m := by
      obtain ⟨hsucc, -⟩ := succ_mod_of_dvd hdvd
      rw [hc, Nat.mul_div_cancel _ hd] at hsucc
      omega
    have hatt : t.attempts.toNat = m := hwait.attempts.trans hdiv
    have hstep := tickDuringTheWait t ok rest' f hwait.arq (hinbox.trans hrest) (hwait.waitRem_pos hd) hwait.frame
    rw [if_neg (not_not.mpr ((hwait.waitRem_eq_one_iff hd).mpr hdvd)),
      if_neg (by rw [hatt, hwait.maxRetry]; exact lt_irrefl _), hatt] at hstep
    have hall := runOutputs_add hrun (runOutputs_one hstep)
    rw [show 1 + quiet.length + 1 = 2 + quiet.length by omega] at hall
    rw [hdiv] at hall
    exact ⟨_, hall, rfl, rfl, hwait.seq, rfl⟩

/-- The ACK that a wait is for resolves the SEND, with the number of its retries. -/
theorem State.WaitsAfter.step_ack {s t : State} {f : Bytes} {c : Nat} (h : s.WaitsAfter f c t) {src dst : DeviceId}
    {q : Byte} {ok : Bool} {rest : List Input}
    (hin : t.inbox = ⟨Wire.event (Sys2Proof.encode (.frameAck src dst q (s.seq + 1))), ok⟩ :: rest) :
    ∃ u, step t = .next u ∧ u.out = [.rsp .success (BitVec.ofNat 32 (c / s.timeout.toNat)) []] ∧ u.arq = .idle ∧
      u.resultErr = .success ∧ u.seq = s.seq + 1 ∧ u.inbox = rest := by
  have hmatch : ackMatches ⟨src, dst, q, [Config.ackMark, s.seq + 1]⟩ t = true :=
    (ackMatches_ack ..).trans (decide_eq_true h.outSeq.symm)
  let taken : State := { t with inbox := rest, txOk := ok, out := [] }
  refine ⟨_, (step_of_presented rfl hin).trans (onFrame_of_match (s := taken) h.arq hmatch), ?_, rfl, rfl, h.seq, rfl⟩
  rw [State.resolve_eq, ← h.attempts]
  rfl

/-- Settles O32: the run up to the ACK, and the ACK. -/
theorem sendWithAckIsAcknowledged : Obligations.SendWithAckIsAcknowledged := by
  intro a low data s quiet src dst q ok rest hidle hd hlen hquiet hok hc hin f n
  obtain ⟨t, hrun, hwait, hinbox⟩ := run_send_quiet hidle hd hlen hquiet hok hin hc
  obtain ⟨u, hstep, hout, hafter⟩ := hwait.step_ack hinbox
  have hall := runOutputs_add hrun (runOutputs_one hstep)
  rw [hout, show 1 + quiet.length + 1 = 2 + quiet.length by omega] at hall
  exact ⟨u, hall, hafter⟩

/-! ## ENCODE commands in a row (R96) -/

/-- An ENCODE in `Idle` answers a frame with the next number, and leaves LLC in `Idle`. -/
theorem step_encode {s : State} {a : BitVec 16} {low : BitVec 8} {data : Bytes} {ok : Bool} {rest : List Input}
    (hidle : s.arq = .idle) (hlen : data.length ≤ 255)
    (hin : s.inbox = ⟨Wire.event (encode (.encode a low data)), ok⟩ :: rest) :
    ∃ u f, step s = .next u ∧ u.arq = .idle ∧ u.seq = s.seq + 1 ∧ u.inbox = rest ∧
      u.out = [.rsp .success (BitVec.ofNat 32 f.length) f] ∧ byteAt f 5 = s.seq + 1 := by
  have hwf : Instr.wf (.encode a low data) = true := decide_eq_true (by show data.length < 2 ^ 16; omega)
  obtain ⟨hexec, -⟩ := encodeAnswersTheFrame a low data { s with inbox := rest, txOk := ok, out := [] } hidle
  obtain ⟨u, hu, heq, -⟩ := hexec hlen
  refine ⟨u, _, (step_of_presented hwf hin).trans hu, by rw [heq]; exact hidle, by rw [heq], by rw [heq], ?_,
    byteAt_buildFrame_seq ⟨s.devid, a, s.seq + 1, data⟩⟩
  rw [heq, buildFrame_length]
  rfl

/-- Settles O47, by induction on the commands: the first takes the next number, and the others go on from there. -/
theorem successiveEncodesCountModulo256 : Obligations.SuccessiveEncodesCountModulo256 := by
  intro cmds
  induction cmds with
  | nil =>
    intro s rest hidle _ _
    exact ⟨s, [], rfl, rfl, by simp [Nat.mod_eq_of_lt s.seq.isLt], hidle, by simp⟩
  | cons c cmds ih =>
    intro s rest hidle hlen hin
    obtain ⟨u, f, hstep, hu, hseq, hinbox, hout, hbyte⟩ := step_encode hidle (hlen c (by simp)) hin
    obtain ⟨t, outs, hrun, hcount, hlast, hend, hnum⟩ := ih u rest hu (fun c' hc => hlen c' (by simp [hc])) hinbox
    have hsucc : u.seq.toNat = (s.seq.toNat + 1) % 256 := by rw [hseq, BitVec.toNat_add]; rfl
    have hall := runOutputs_add (runOutputs_one hstep) hrun
    rw [hout, Nat.add_comm] at hall
    refine ⟨t, _, hall, by simp [hcount], by rw [hlast, hsucc, List.length_cons]; omega, hend, ?_⟩
    rintro (_ | k) hk
    · exact ⟨f, rfl, by rw [hbyte, BitVec.toNat_add]; rfl⟩
    · obtain ⟨g, hg, hgbyte⟩ := hnum k (by simpa using hk)
      exact ⟨g, hg, by rw [hgbyte, hsucc]; omega⟩

end Sys2Proof.Machine
end

section
/-! PROOF that the record of past attempts and decodes influences nothing but RDREG (10_state.md R30, R31). Two states that
are alike, at the same point of a step, are twins; every operation of the model takes twins to twins, so an event that
completes in one of them completes in the other, with the same outputs. -/

namespace Sys2Proof.Machine

/-! ## Twins -/

/-- Two states that are alike, at the same point of a step: with the same draw and the same outputs so far. -/
structure State.Twins (s x : State) : Prop where
  alike : s.Alike x
  txOk : x.txOk = s.txOk
  out : x.out = s.out

/-- Where the first answer is a next state, the second is one too, its twin. -/
def Result.Twins (r q : Result) : Prop := ∀ t, r = .next t → ∃ u, q = .next u ∧ t.Twins u

/-- Answers that are known to be twins. -/
theorem Result.twins_next {r q : Result} {t u : State} (hr : r = .next t) (hq : q = .next u) (h : t.Twins u) :
    Result.Twins r q := by
  rintro _ rfl
  cases hr
  exact ⟨u, hq, h⟩

/-- A meaning of a command, in twins: its own in `Idle`, no effect elsewhere. -/
theorem State.Twins.whenIdle {s x : State} (h : s.Twins x) {m : State → Result}
    (hm : s.arq = .idle → Result.Twins (m s) (m x)) : Result.Twins (s.whenIdle m) (x.whenIdle m) := by
  by_cases hidle : s.arq = .idle
  · rw [State.whenIdle_of_idle hidle, State.whenIdle_of_idle (h.alike.arq.trans hidle)]
    exact hm hidle
  · exact Result.twins_next (State.whenIdle_of_not_idle hidle m)
      (State.whenIdle_of_not_idle (by rwa [h.alike.arq]) m) h

section operations
variable {s x : State} (h : s.Twins x)
include h

/-- The same outputs after what there was. -/
theorem State.Twins.withOut (os : List Output) :
    ({ s with out := s.out ++ os } : State).Twins { x with out := x.out ++ os } :=
  ⟨{ h.alike with }, h.txOk, by rw [h.out]⟩

theorem State.Twins.respond (err : ErrCode) (val : Value) (data : Bytes) :
    (s.respond err val data).Twins (x.respond err val data) := h.withOut _

theorem State.Twins.emit (o : Output) : (s.emit o).Twins (x.emit o) := h.withOut _

/-- The record of a decode is no part of what twins agree on. -/
theorem State.Twins.recordFrame (fr : Frame) : (s.recordFrame fr).Twins (x.recordFrame fr) :=
  ⟨{ h.alike with }, h.txOk, h.out⟩

theorem State.Twins.recordReject (e : DecodeError) : (s.recordReject e).Twins (x.recordReject e) :=
  ⟨{ h.alike with }, h.txOk, h.out⟩

/-- Twins during a wait have made the same number of retries, so they resolve with the same `Rsp`. -/
theorem State.Twins.resolve (hwait : s.arq = .awaitingAck) (err : ErrCode) :
    (s.resolve err).Twins (x.resolve err) := by
  obtain ⟨-, hattempts, -, -⟩ := h.alike.pending hwait
  exact ⟨{ h.alike with arq := rfl, pending := nofun }, h.txOk, by simp [hattempts, h.out]⟩

/-- In `Idle`, `encode` builds the same frame in twins, and leaves twins with that frame in `TXF`. -/
theorem State.Twins.encode (hidle : s.arq = .idle) (dst : DeviceId) {p : Bytes} (hp : p.length ≤ 255) :
    ∃ f u v, s.encode dst p = some (f, u) ∧ x.encode dst p = some (f, v) ∧ u.Twins v ∧
      u.txFrame = .ok f ∧ v.txFrame = .ok f := by
  obtain ⟨u, hu, hueq, -, -, huf, -⟩ := s.encode_spec dst hp
  obtain ⟨v, hv, hveq, -, -, hvf, -⟩ := x.encode_spec dst hp
  obtain ⟨⟨harq, hdevid, hseq, hmax, htime, hauto, hparams, hinbox, -⟩, hok, hout⟩ := h
  rw [hdevid, hseq] at hv hvf
  refine ⟨_, u, v, hu, hv, ?_, huf, hvf⟩
  rw [hueq, hveq]
  exact ⟨⟨harq, hdevid, by simp [hseq], hmax, htime, hauto, hparams, hinbox,
    fun hwait => nomatch hidle.symm.trans hwait⟩, hok, hout⟩

/-- In `Idle`, a write of a register is the same in twins. -/
theorem State.Twins.writeReg (hidle : s.arq = .idle) (r : Reg) (v : Value) :
    Option.Rel State.Twins (s.writeReg r v) (x.writeReg r v) := by
  have noWait {P : Prop} (hwait : s.arq = .awaitingAck) : P := nomatch hidle.symm.trans hwait
  cases r <;> simp only [State.writeReg]
  case maxRetry =>
    split
    · exact .some ⟨{ h.alike with maxRetry := rfl, pending := noWait }, h.txOk, h.out⟩
    · exact .none
  case timeout =>
    split
    · exact .some ⟨{ h.alike with timeout := rfl, pending := noWait }, h.txOk, h.out⟩
    · exact .none
  case ctrl => exact .some ⟨{ h.alike with autoAck := rfl, pending := noWait }, h.txOk, h.out⟩
  all_goals exact .none

end operations

/-! ## Instructions in twins -/

/-- The acknowledgment, by what `encode` leaves of the state it runs in (R152, R153). -/
theorem sendAck_of_encode {fr : Frame} {s u : State} {f : Bytes}
    (h : s.encode fr.src [Config.ackMark, fr.seq] = some (f, u)) :
    sendAck fr s = { u with
      ackTxFail := !u.txOk, out := u.out ++ (.transmit f :: if u.txOk then [] else [.ackTxFail]) } := by
  simp only [sendAck, h]
  cases hok : u.txOk <;> simp [State.emit, hok]

section instructions
variable {s x : State} (h : s.Twins x)
include h

/-- A transmission of the same frame: the same wait in both, or the same resolution. -/
theorem arqSending_twins (hframe : x.txFrame = s.txFrame) (hatt : x.attempts = s.attempts)
    (hout : x.outSeq = s.outSeq) : Result.Twins (arqSending s) (arqSending x) := by
  intro t ht
  obtain ⟨f, hs, -⟩ := arqSending_eq_next ht
  have hx : x.txFrame = .ok f := hframe.trans hs
  revert t
  cases hok : s.txOk with
  | true =>
    refine Result.twins_next (arqSending_of_txOk hs hok) (arqSending_of_txOk hx (h.txOk.trans hok)) ?_
    exact ⟨{ h.alike with arq := rfl, pending := fun _ => ⟨hout, hatt, h.alike.timeout, hframe⟩ }, h.txOk,
      by rw [h.out]⟩
  | false =>
    refine Result.twins_next (arqSending_of_txFail hs hok) (arqSending_of_txFail hx (h.txOk.trans hok)) ?_
    exact ⟨{ h.alike with arq := rfl, pending := nofun }, h.txOk, by rw [h.out, hatt]⟩

/-- A SEND loads everything its attempt reads: from what twins agree on. -/
theorem exec_send_twins (a : BitVec 16) (low : BitVec 8) (data : Bytes) :
    Result.Twins (exec (.send a low data) s) (exec (.send a low data) x) := by
  by_cases hidle : s.arq = .idle
  case neg =>
    exact Result.twins_next (exec_of_not_idle rfl hidle) (exec_of_not_idle rfl (by rwa [h.alike.arq])) h
  have hidle' : x.arq = .idle := h.alike.arq.trans hidle
  have hclear : ({ s with cancelled := false } : State).Twins { x with cancelled := false } :=
    ⟨{ h.alike with }, h.txOk, h.out⟩
  by_cases hlen : data.length ≤ 255
  · obtain ⟨f, u, v, hu, hv, htwins, huf, hvf⟩ := hclear.encode hidle a hlen
    rw [exec_send_of_some hidle a low hu, exec_send_of_some hidle' a low hv]
    have hseq := htwins.alike.seq
    have hstart : (startAttempt u).Twins (startAttempt v) :=
      ⟨{ htwins.alike with arq := rfl, pending := nofun }, htwins.txOk, htwins.out⟩
    exact arqSending_twins hstart (hvf.trans huf.symm) rfl hseq
  · refine Result.twins_next (exec_send_of_long hidle a low (by omega)) (exec_send_of_long hidle' a low (by omega)) ?_
    have hrefused : ({ s with cancelled := false, resultErr := .payloadTooLarge } : State).Twins
        { x with cancelled := false, resultErr := .payloadTooLarge } := ⟨{ h.alike with }, h.txOk, h.out⟩
    exact hrefused.respond _ _ _

/-- An acknowledgment is the same in twins. -/
theorem sendAck_twins (hidle : s.arq = .idle) (fr : Frame) : (sendAck fr s).Twins (sendAck fr x) := by
  obtain ⟨f, u, v, hu, hv, htwins, -⟩ := h.encode hidle fr.src (p := [Config.ackMark, fr.seq]) (by simp)
  rw [sendAck_of_encode hu, sendAck_of_encode hv]
  exact ⟨{ htwins.alike with }, htwins.txOk, by rw [htwins.out, htwins.txOk]⟩

/-- A frame, received in `Idle` or during a wait. -/
theorem onFrame_twins (hrest : s.arq = .idle ∨ s.arq = .awaitingAck) (fr : Frame) :
    Result.Twins (onFrame fr s) (onFrame fr x) := by
  have hrec := h.recordFrame fr
  obtain hidle | hwait := hrest
  · refine Result.twins_next (onFrame_of_idle hidle fr) (onFrame_of_idle (h.alike.arq.trans hidle) fr) ?_
    cases hk : fr.isAck with
    | true => rwa [receiveFrame_of_isAck hk, receiveFrame_of_isAck hk]
    | false =>
      have hdelivered := hrec.emit (.deliver fr.src fr.dst fr.seq fr.payload)
      cases hauto : s.autoAck with
      | false =>
        rwa [receiveFrame_of_not_autoAck hk (s := s.recordFrame fr) hauto,
          receiveFrame_of_not_autoAck hk (s := x.recordFrame fr) (h.alike.autoAck.trans hauto)]
      | true =>
        rw [receiveFrame_of_autoAck hk (s := s.recordFrame fr) hauto,
          receiveFrame_of_autoAck hk (s := x.recordFrame fr) (h.alike.autoAck.trans hauto)]
        exact sendAck_twins hdelivered hidle fr
  · obtain ⟨houtSeq, -⟩ := h.alike.pending hwait
    have hmatch : ackMatches fr x = ackMatches fr s := by rw [ackMatches, houtSeq]; rfl
    have hwait' : x.arq = .awaitingAck := h.alike.arq.trans hwait
    cases hm : ackMatches fr s with
    | true =>
      exact Result.twins_next (onFrame_of_match hwait hm) (onFrame_of_match hwait' (hmatch.trans hm))
        (hrec.resolve hwait _)
    | false =>
      exact Result.twins_next (onFrame_of_no_match hwait hm) (onFrame_of_no_match hwait' (hmatch.trans hm)) hrec

/-- An ENCODE answers twins the same frame. -/
theorem exec_encode_twins (hidle : s.arq = .idle) (a : BitVec 16) (low : BitVec 8) (data : Bytes) :
    Result.Twins (exec (.encode a low data) s) (exec (.encode a low data) x) := by
  have hidle' : x.arq = .idle := h.alike.arq.trans hidle
  by_cases hlen : data.length ≤ 255
  · obtain ⟨f, u, v, hu, hv, htwins, -⟩ := h.encode hidle a hlen
    exact Result.twins_next (exec_encode_of_some hidle a low hu) (exec_encode_of_some hidle' a low hv)
      (htwins.respond _ _ _)
  · exact Result.twins_next (exec_encode_of_long hidle a low (by omega)) (exec_encode_of_long hidle' a low (by omega))
      (h.withOut _)

/-- A DECODE answers twins the same. -/
theorem exec_decode_twins (hidle : s.arq = .idle) (a : BitVec 16) (low : BitVec 8) (data : Bytes) :
    Result.Twins (exec (.decode a low data) s) (exec (.decode a low data) x) := by
  have hidle' : x.arq = .idle := h.alike.arq.trans hidle
  cases hd : decodeFrame data with
  | ok fr =>
    exact Result.twins_next (exec_decode_of_frame hidle a low hd) (exec_decode_of_frame hidle' a low hd)
      ((h.recordFrame fr).respond _ _ _)
  | error e =>
    exact Result.twins_next (exec_decode_of_no_frame hidle a low hd) (exec_decode_of_no_frame hidle' a low hd)
      ((h.recordReject e).respond _ _ _)

/-- A WRREG writes twins the same, or refuses both. -/
theorem exec_wrreg_twins (hidle : s.arq = .idle) (r : BitVec 8) (v : Value) :
    Result.Twins (exec (.wrreg r v) s) (exec (.wrreg r v) x) := by
  have hidle' : x.arq = .idle := h.alike.arq.trans hidle
  cases hr : Reg.ofNumber r with
  | none =>
    exact Result.twins_next (exec_wrreg_of_reserved hidle hr v) (exec_wrreg_of_reserved hidle' hr v) (h.respond _ _ _)
  | some reg =>
    obtain rfl := Reg.number_of_ofNumber hr
    refine Result.twins_next (exec_wrreg_of_register hidle reg v) (exec_wrreg_of_register hidle' reg v) ?_
    have hwrite := h.writeReg hidle reg v
    generalize s.writeReg reg v = r, x.writeReg reg v = q at hwrite
    cases hwrite with
    | none => exact h.respond _ _ _
    | some hw => exact hw.respond _ _ _

/-- Every instruction takes twins at rest to twins, but for a RDREG in `Idle`. -/
theorem exec_twins {i : Instr} (hrest : s.arq = .idle ∨ s.arq = .awaitingAck)
    (hi : s.arq = .idle → ∀ r v, i ≠ .rdreg r v) : Result.Twins (exec i s) (exec i x) := by
  by_cases hbusy : Instr.isCommand i = true ∧ s.arq ≠ .idle
  case pos =>
    obtain ⟨hcmd, hne⟩ := hbusy
    exact Result.twins_next (exec_of_not_idle hcmd hne) (exec_of_not_idle hcmd (by rwa [h.alike.arq])) h
  have hidle (hcmd : Instr.isCommand i = true) : s.arq = .idle := by tauto
  cases i with
  | crc16 a low data =>
    exact Result.twins_next (exec_crc16_of_idle (hidle rfl) a low data)
      (exec_crc16_of_idle (h.alike.arq.trans (hidle rfl)) a low data) (h.respond _ _ _)
  | encode a low data => exact exec_encode_twins h (hidle rfl) a low data
  | decode a low data => exact exec_decode_twins h (hidle rfl) a low data
  | send a low data => exact exec_send_twins h a low data
  | rdreg r v => exact absurd rfl (hi (hidle rfl) r v)
  | wrreg r v => exact exec_wrreg_twins h (hidle rfl) r v
  | frame src dst q p => exact onFrame_twins h hrest ⟨src, dst, q, p⟩
  | frameAck src dst q acked => exact onFrame_twins h hrest ⟨src, dst, q, [Config.ackMark, acked]⟩

end instructions

/-! ## Events in twins -/

/-- Only `op` 5 is read as a RDREG (R74). -/
theorem op_of_decode_rdreg {w : CommandWord} {d : Bytes} {r : BitVec 8} {v : Value}
    (h : decode (.command w d) = .ok (.rdreg r v)) : CommandWord.op w = 0x05 := by
  obtain ⟨-, henc⟩ := encode_of_decodeCommand h
  obtain ⟨hw, -⟩ := Wire.command.inj henc
  rw [← hw, op_formatR]

section events
variable {s x : State} (h : s.Twins x) (hrest : s.arq = .idle ∨ s.arq = .awaitingAck)
include h hrest

/-- A presentation, but for a RDREG in `Idle`, takes twins to twins. -/
theorem onWire_twins {w : Wire}
    (hw : s.arq = .idle → ∀ word d, w = .command word d → CommandWord.op word ≠ 0x05) :
    Result.Twins (onWire w s) (onWire w x) := by
  simp only [Machine.onWire]
  cases hd : decode w with
  | ok i =>
    refine exec_twins h hrest fun hidle r v hi => ?_
    cases w with
    | command word d => exact hw hidle word d rfl (op_of_decode_rdreg (hi ▸ hd))
    | buffer raw =>
      obtain ⟨fr, -, hfr⟩ := decode_buffer_eq_ok hd
      rw [hi, Frame.toInstr] at hfr
      split at hfr <;> cases hfr
  | error e =>
    have hrest' : s.atRest = true := hrest.elim State.atRest_of_idle State.atRest_of_awaitingAck
    have hrest'' : x.atRest = true := by rwa [State.atRest, h.alike.arq]
    cases e with
    | reservedOpcode op =>
      exact h.whenIdle (m := fun s => .next s.refuseCommand) fun _ => Result.twins_next rfl rfl (h.respond _ _ _)
    | commandDataLength =>
      refine h.whenIdle (m := fun _ => .refused .commandDataLength) fun _ t ht => ?_
      cases ht
    | malformedFrame | checksumMismatch =>
      exact Result.twins_next (if_pos hrest') (if_pos hrest'') (h.recordReject _)

/-- A tick takes twins to twins: they have the same deadline, the same retries and the same frame. -/
theorem onTick_twins : Result.Twins (onTick s) (onTick x) := by
  obtain hidle | hwait := hrest
  · have hne : s.arq ≠ .awaitingAck := by simp [hidle]
    exact Result.twins_next (onTick_of_not_awaitingAck hne) (onTick_of_not_awaitingAck (by rwa [h.alike.arq])) h
  have hwait' : x.arq = .awaitingAck := h.alike.arq.trans hwait
  obtain ⟨hout, hatt, hrem, hframe⟩ := h.alike.pending hwait
  by_cases hw : s.waitRem = 1
  case neg =>
    refine Result.twins_next (onTick_of_ne_one hwait hw) (onTick_of_ne_one hwait' (by rwa [hrem])) ?_
    exact ⟨{ h.alike with pending := fun _ => ⟨hout, hatt, by rw [hrem], hframe⟩ }, h.txOk, h.out⟩
  have hw' : x.waitRem = 1 := hrem.trans hw
  by_cases hlt : s.attempts.toNat < s.maxRetry.toNat
  · have hlt' : x.attempts.toNat < x.maxRetry.toNat := by rwa [hatt, h.alike.maxRetry]
    rw [onTick_of_retry hwait hw hlt, onTick_of_retry hwait' hw' hlt']
    exact arqSending_twins ⟨{ h.alike with arq := rfl, pending := nofun }, h.txOk, h.out⟩ hframe (by simp [hatt])
      hout
  · have hge : ¬ x.attempts.toNat < x.maxRetry.toNat := by rwa [hatt, h.alike.maxRetry]
    refine Result.twins_next (onTick_of_exhausted hwait hw hlt) (onTick_of_exhausted hwait' hw' hge) ?_
    have hzero : ({ s with waitRem := 0 } : State).Twins { x with waitRem := 0 } :=
      ⟨{ h.alike with pending := fun _ => ⟨hout, hatt, rfl, hframe⟩ }, h.txOk, h.out⟩
    exact hzero.resolve hwait _

/-- A cancel takes twins to twins. -/
theorem onCancel_twins : Result.Twins (onCancel s) (onCancel x) := by
  obtain hidle | hwait := hrest
  · have hne : s.arq ≠ .awaitingAck := by simp [hidle]
    exact Result.twins_next (onCancel_of_not_awaitingAck hne) (onCancel_of_not_awaitingAck (by rwa [h.alike.arq])) h
  · have hset : ({ s with cancelled := true } : State).Twins { x with cancelled := true } :=
      ⟨{ h.alike with }, h.txOk, h.out⟩
    exact Result.twins_next (onCancel_of_awaitingAck hwait) (onCancel_of_awaitingAck (h.alike.arq.trans hwait))
      (hset.resolve hwait _)

/-- Every event takes twins at rest to twins, but for a RDREG in `Idle`. -/
theorem onEvent_twins {e : Event}
    (he : s.arq = .idle → ∀ word d, e = .cmd word d → CommandWord.op word ≠ 0x05) :
    Result.Twins (onEvent e s) (onEvent e x) := by
  cases e with
  | cmd word d =>
    refine onWire_twins h hrest fun hidle word' d' hw => ?_
    cases hw
    exact he hidle word d rfl
  | rxBytes b => exact onWire_twins h hrest fun _ _ _ => nofun
  | tick => exact onTick_twins h hrest
  | cancel => exact onCancel_twins h hrest
  | reset =>
    refine Result.twins_next rfl rfl ?_
    rw [h.alike.params]
    exact ⟨⟨rfl, rfl, rfl, rfl, rfl, rfl, rfl, h.alike.inbox, nofun⟩, h.txOk, h.out⟩

end events

/-- Settles O52: alike states with the same input taken are twins. -/
theorem resolvedAttemptLeavesNoTrace : Obligations.ResolvedAttemptLeavesNoTrace := by
  intro s x t hrest halike hno hstep
  cases hin : s.inbox with
  | nil =>
    rw [step, hin] at hstep
    cases hstep
    exact ⟨x.rest, by rw [step, halike.inbox, hin], rfl, { halike with }⟩
  | cons i rest =>
    obtain ⟨e, ok⟩ := i
    have htwins : (s.takeInput ⟨e, ok⟩ rest).Twins (x.takeInput ⟨e, ok⟩ rest) :=
      ⟨{ halike with inbox := rfl }, rfl, rfl⟩
    rw [step_of_inbox hin] at hstep
    rw [step_of_inbox (halike.inbox.trans hin)]
    obtain ⟨u, hu, ⟨halike', -, hout⟩⟩ := onEvent_twins htwins hrest
      (fun hidle word d he => hno hidle word d ok rest (he ▸ hin)) t hstep
    exact ⟨u, hu, hout, halike'⟩

end Sys2Proof.Machine
end
